-- ==== Sys2Proof/Word.lean ====
section
/-!
DEFINITION. The two bit-vector types of the block: a codeword (00_scope.md R15) and a register or
command word (10_state.md R32). Counts, lengths and CWRAM addresses are naturals (00_scope.md R9).
-/

namespace Sys2Proof

/-- A codeword, a CWRAM cell or a generator exponent (00_scope.md R15). -/
abbrev Byte := BitVec 8

/-- A register, a command word or an operand register (10_state.md R32, 30_encoding.md R110). -/
abbrev Word := BitVec 32

end Sys2Proof
end

