-- ==== Sys2Proof/Config.lean ====
section
/-!
DEFINITION. What this implementation fixes: the parameters of 00_scope.md R7 and the parameters
92_eei_decisions.md leaves open. The ROM contents are in Sys2Proof/Machine/Roms.lean.
-/

namespace Sys2Proof

/-- The readings of the condition-4 penalty rule (parameter `PERCENT_RULE`, D29; 43_mask_penalty.md
R241 and R242). -/
inductive PercentRule where
  | prevNext
  | floorAbs
deriving DecidableEq, Repr

/-- The contents of the condition-1 tables (parameter `TRAIL_TABLE`, D30; 43_mask_penalty.md R245).
The spec names one value, RUN_PENALTY. -/
inductive TrailTable where
  | runPenalty
deriving DecidableEq, Repr

/-- `CWRAM_BYTES`, the number of CWRAM cells (00_scope.md R7, 10_state.md R49). -/
def Config.cwramBytes : Nat := 8192

/-- `CWRAM_BASE`, the aperture offset of CWRAM address 0 (00_scope.md R7). -/
def Config.cwramBase : Nat := 0x2000

/-- The first offset past the registers (20_memory.md R81). -/
def Config.registerBytes : Nat := 0x28

/-- `GEN_MAX_LEN`, the longest generator DIVIDE accepts (00_scope.md R7). -/
def Config.genMaxLen : Nat := 31

/-- `ID_VALUE`, the constant register ID holds (00_scope.md R7, 10_state.md R33). -/
def Config.idValue : Word := 0x51524331

/-- This hardware's value of `PERCENT_RULE` (00_scope.md R7, D29; log entry 13). -/
def Config.percentRule : PercentRule := .prevNext

/-- This hardware's value of `TRAIL_TABLE` (00_scope.md R7, D30; log entry 14). -/
def Config.trailTable : TrailTable := .runPenalty

/-- `BLOCK_BASE`, the system address of aperture offset 0: the platform's choice, left open
(20_memory.md R80, D8; log entry 18). No rule of the block reads it. -/
opaque Config.blockBase : Nat

end Sys2Proof
end

