-- ==== Sys2Proof/Names.lean ====
section
/-!
DEFINITION. The spec's closed sets of names: error-correction levels, data modes and fault causes.
Their numeric codes are in Sys2Proof/Decode.lean and Sys2Proof/Machine/Flags.lean.
-/

namespace Sys2Proof

/-- Error-correction level (00_scope.md R12). -/
inductive Ecl where
  | L
  | M
  | Q
  | H
deriving DecidableEq, Repr

/-- Data mode, the MODE operand of CCIB (00_scope.md R14). -/
inductive Mode where
  | numeric
  | alphanumeric
  | byte
deriving DecidableEq, Repr

/-- The thirteen fault causes of a command (60_exceptions.md R270). -/
inductive Cause where
  | illegalOpcode
  | reservedBits
  | badVersion
  | badMode
  | badSize
  | badOperand
  | logZero
  | genEmpty
  | genTooLong
  | msgEmpty
  | lenMismatch
  | range
  | overlap
deriving DecidableEq, Repr

end Sys2Proof
end

