-- ==== Sys2Proof/Syntax.lean ====
section
/-!
DEFINITION. The commands: one constructor per row of spec/opcode_table.json (30_encoding.md R113),
with the command-word fields the row uses. VER, MODE and SIZE are the raw fields of the word
(30_encoding.md R111), because a word can select a row and still fault on their values (R113, R118).
-/

namespace Sys2Proof

inductive Instr where
  /-- EXP: read `exp_to_field` (40_gf_engine.md R144). -/
  | exp
  /-- LOG: read `field_to_exp` (40_gf_engine.md R145). -/
  | log
  /-- DIVIDE: polynomial division (40_gf_engine.md R146). -/
  | divide
  /-- RSENC: encode one block (42_structurer.md R210). -/
  | rsenc (ver : BitVec 6) (ecl : Ecl)
  /-- STRUCT: interleave data and error blocks (42_structurer.md R212). -/
  | struct (ver : BitVec 6) (ecl : Ecl)
  /-- DCW: data codewords (41_tables.md R170). -/
  | dcw (ver : BitVec 6) (ecl : Ecl)
  /-- DBITS: data bits (41_tables.md R171). -/
  | dbits (ver : BitVec 6) (ecl : Ecl)
  /-- CCIB: character-count indicator width (41_tables.md R172). -/
  | ccib (ver : BitVec 6) (mode : BitVec 2)
  /-- GROUPS: block layout (41_tables.md R173). -/
  | groups (ver : BitVec 6) (ecl : Ecl)
  /-- ECT: error-correction codewords per block (41_tables.md R174). -/
  | ect (ver : BitVec 6) (ecl : Ecl)
  /-- GETPOLY: fetch a generator polynomial (41_tables.md R175). -/
  | getpoly (ver : BitVec 6) (ecl : Ecl)
  /-- FMTINFO: format-information word (41_tables.md R185). -/
  | fmtinfo (ecl : Ecl) (mask : BitVec 3)
  /-- PSCORE: condition-4 penalty (43_mask_penalty.md R240). -/
  | pscore
  /-- TRAIL: condition-1 penalty (43_mask_penalty.md R243). -/
  | trail (size : BitVec 4)
deriving DecidableEq, Repr

end Sys2Proof
end

