-- ==== Sys2Proof/WellFormed.lean ====
section
/-!
DEFINITION. Which commands have legal field values (30_encoding.md R112): VER in 1..40, MODE not 3,
SIZE in 5..11. An ill-formed command is still a command of the table: it faults when it runs.
-/

namespace Sys2Proof

/-- VER is a version number 1..40 (30_encoding.md R112). -/
def WellFormed.version (ver : BitVec 6) : Bool := decide (1 ≤ ver.toNat ∧ ver.toNat ≤ 40)

/-- MODE is not the illegal code 3 (30_encoding.md R112). -/
def WellFormed.mode (mode : BitVec 2) : Bool := mode != 3#2

/-- SIZE is a buffer size 5..11 (30_encoding.md R112). -/
def WellFormed.size (size : BitVec 4) : Bool := decide (5 ≤ size.toNat ∧ size.toNat ≤ 11)

/-- Every field the command uses has a legal value (30_encoding.md R112). -/
def Instr.wellFormed : Instr → Bool
  | .exp => true
  | .log => true
  | .divide => true
  | .rsenc ver _ => WellFormed.version ver
  | .struct ver _ => WellFormed.version ver
  | .dcw ver _ => WellFormed.version ver
  | .dbits ver _ => WellFormed.version ver
  | .ccib ver mode => WellFormed.version ver && WellFormed.mode mode
  | .groups ver _ => WellFormed.version ver
  | .ect ver _ => WellFormed.version ver
  | .getpoly ver _ => WellFormed.version ver
  | .fmtinfo _ _ => true
  | .pscore => true
  | .trail size => WellFormed.size size

end Sys2Proof
end

