-- ==== Sys2Proof/Decode.lean ====
section
/-!
DEFINITION. Decoding and encoding of the 32-bit command word (30_encoding.md R110 to R120).
`decode` is total: it answers a command, or the fault cause ILLEGAL_OPCODE or RESERVED_BITS. The
checks of VER, MODE and SIZE values, which R118 puts after the row is selected, are made by the
command itself (Sys2Proof/Machine/Operands.lean).
-/

namespace Sys2Proof

/-! ## Fields of the word (30_encoding.md R111, R115) -/

def fieldOp (w : Word) : BitVec 8 := w.extractLsb' 0 8
def fieldVer (w : Word) : BitVec 6 := w.extractLsb' 8 6
def fieldEcl (w : Word) : BitVec 2 := w.extractLsb' 14 2
def fieldMask (w : Word) : BitVec 3 := w.extractLsb' 16 3
def fieldMode (w : Word) : BitVec 2 := w.extractLsb' 19 2
def fieldSize (w : Word) : BitVec 4 := w.extractLsb' 24 4

/-- The ECL code of a level: L = 0, M = 1, Q = 2, H = 3 (30_encoding.md R112). -/
def Ecl.code : Ecl → BitVec 2
  | .L => 0
  | .M => 1
  | .Q => 2
  | .H => 3

/-- The level of an ECL code; all four codes are legal (30_encoding.md R112). -/
def Ecl.ofCode (c : BitVec 2) : Ecl :=
  if c = 0 then .L else if c = 1 then .M else if c = 2 then .Q else .H

/-- The mode of a MODE code; code 3 is illegal (30_encoding.md R112). -/
def Mode.ofCode (c : BitVec 2) : Option Mode :=
  if c = 0 then some .numeric
  else if c = 1 then some .alphanumeric
  else if c = 2 then some .byte
  else none

/-! ## The opcode map (30_encoding.md R113) -/

/-- One row of the opcode map: its match and mask words, and the command a word that selects the
row stands for. -/
structure OpcodeRow where
  pattern : Word
  care : Word
  build : Word → Instr

/-- The match and mask table of 30_encoding.md R113. -/
def opcodeRows : List OpcodeRow := [
  ⟨0x00000001, 0xFFFFFFFF, fun _ => .exp⟩,
  ⟨0x00000002, 0xFFFFFFFF, fun _ => .log⟩,
  ⟨0x00000010, 0xFFFFFFFF, fun _ => .divide⟩,
  ⟨0x00000011, 0xFFFF00FF, fun w => .rsenc (fieldVer w) (Ecl.ofCode (fieldEcl w))⟩,
  ⟨0x00000012, 0xFFFF00FF, fun w => .struct (fieldVer w) (Ecl.ofCode (fieldEcl w))⟩,
  ⟨0x00000020, 0xFFFF00FF, fun w => .dcw (fieldVer w) (Ecl.ofCode (fieldEcl w))⟩,
  ⟨0x00000021, 0xFFFF00FF, fun w => .dbits (fieldVer w) (Ecl.ofCode (fieldEcl w))⟩,
  ⟨0x00000022, 0xFFE7C0FF, fun w => .ccib (fieldVer w) (fieldMode w)⟩,
  ⟨0x00000023, 0xFFFF00FF, fun w => .groups (fieldVer w) (Ecl.ofCode (fieldEcl w))⟩,
  ⟨0x00000024, 0xFFFF00FF, fun w => .ect (fieldVer w) (Ecl.ofCode (fieldEcl w))⟩,
  ⟨0x00000025, 0xFFFF00FF, fun w => .getpoly (fieldVer w) (Ecl.ofCode (fieldEcl w))⟩,
  ⟨0x00000026, 0xFFF83FFF, fun w => .fmtinfo (Ecl.ofCode (fieldEcl w)) (fieldMask w)⟩,
  ⟨0x00000030, 0xFFFFFFFF, fun _ => .pscore⟩,
  ⟨0x00000031, 0xF0FFFFFF, fun w => .trail (fieldSize w)⟩]

/-- The row whose opcode is the OP field of the word (30_encoding.md R118). -/
def rowOf (w : Word) : Option OpcodeRow :=
  opcodeRows.find? fun r => fieldOp r.pattern == fieldOp w

/-- The first two tests of the decode procedure, and the command the word stands for
(30_encoding.md R116, R117, R118). -/
def decode (w : Word) : Except Cause Instr :=
  match rowOf w with
  | none => .error .illegalOpcode
  | some r => if w &&& r.care = r.pattern then .ok (r.build w) else .error .reservedBits

/-! ## Encoding (30_encoding.md R120) -/

/-- `OP | VER<<8 | ECL<<14 | MASK<<16 | MODE<<19 | SIZE<<24`, absent fields 0 (30_encoding.md R120). -/
def packWord (op : BitVec 8) (ver : BitVec 6) (ecl : BitVec 2) (mask : BitVec 3)
    (mode : BitVec 2) (size : BitVec 4) : Word :=
  op.setWidth 32 ||| (ver.setWidth 32 <<< 8) ||| (ecl.setWidth 32 <<< 14)
    ||| (mask.setWidth 32 <<< 16) ||| (mode.setWidth 32 <<< 19) ||| (size.setWidth 32 <<< 24)

/-- The command word of a command (30_encoding.md R113, R120). -/
def encode : Instr → Word
  | .exp => packWord 0x01 0 0 0 0 0
  | .log => packWord 0x02 0 0 0 0 0
  | .divide => packWord 0x10 0 0 0 0 0
  | .rsenc ver ecl => packWord 0x11 ver ecl.code 0 0 0
  | .struct ver ecl => packWord 0x12 ver ecl.code 0 0 0
  | .dcw ver ecl => packWord 0x20 ver ecl.code 0 0 0
  | .dbits ver ecl => packWord 0x21 ver ecl.code 0 0 0
  | .ccib ver mode => packWord 0x22 ver 0 0 mode 0
  | .groups ver ecl => packWord 0x23 ver ecl.code 0 0 0
  | .ect ver ecl => packWord 0x24 ver ecl.code 0 0 0
  | .getpoly ver ecl => packWord 0x25 ver ecl.code 0 0 0
  | .fmtinfo ecl mask => packWord 0x26 0 ecl.code mask 0 0
  | .pscore => packWord 0x30 0 0 0 0 0
  | .trail size => packWord 0x31 0 0 0 0 size

/-- The command the decoder reads from a table word: a command is one 32-bit word, moved whole
(30_encoding.md R110, 20_memory.md R85), and every bit above `nbits` is 0. -/
def decodeTableWord (nbits w : Nat) : Option Instr :=
  (decode (BitVec.ofNat 32 (w % 2 ^ nbits))).toOption

end Sys2Proof
end

