-- ==== Sys2Proof/Machine/State.lean ====
section
/-!
DEFINITION. The state of the block, as plain data, and its value after reset. It holds every piece of
state 10_state.md gives (INVENTORY.md lists them) and two fields that are the model's own: `response`
(what the bus answered last) and `turns` (what the host does next and when the engine moves).
-/

namespace Sys2Proof.Machine

/-- ENG (10_state.md R30, R52). -/
inductive Engine where
  | idle
  | busy
  | faulted
deriving DecidableEq, Repr

/-- The size of a bus access: n = 1, 2 or 4 bytes (20_memory.md R80). -/
inductive AccessSize where
  | byte
  | half
  | word
deriving DecidableEq, Repr

/-- A host bus transaction at a byte offset of the aperture (20_memory.md R80). A write carries its
n-byte value in the low n bytes of `wdata` (log entry 17). -/
inductive Transaction where
  | read (off : BitVec 14) (n : AccessSize)
  | write (off : BitVec 14) (n : AccessSize) (wdata : Word)
deriving DecidableEq, Repr

/-- `resp` of a transaction (20_memory.md R80). -/
inductive Resp where
  | okay
  | error
deriving DecidableEq, Repr

/-- What the bus returns: `resp`, and for a read `rdata`, zero-extended (20_memory.md R80). -/
structure BusResponse where
  resp : Resp
  rdata : Option Word
deriving DecidableEq, Repr

/-- Who moves next (20_memory.md R91): the host with a transaction, the engine with the end of its
command, or the `rst_n` pin with a new level (log entry 1). -/
inductive Turn where
  | host (t : Transaction)
  | engine
  | rst (level : Bool)
deriving DecidableEq, Repr

/-- CWRAM as the list of its defined cells, addresses strictly rising (10_state.md R49). An address
that is not listed is an undefined cell (93_implementation_defined.md I3; log entry 3). -/
abbrev Memory := List Host.Cell

/-- Why a step stops. -/
inductive Fault where
  /-- A command or a host read needs CWRAM cell `addr`, which is undefined: never written since
  power-up, or in the destination of an abandoned command (93_implementation_defined.md I3, I4: the
  model faults). Raised by `readThen` (DIVIDE, RSENC, STRUCT) and by host reads of the CWRAM window.
  Safe: the chip goes on with some byte. -/
  | undefinedCell (addr : Nat)
  /-- A host transaction while `rst_n` = 0 has no defined response (70_reset_and_hazards.md R300,
  93_implementation_defined.md I6). Raised by `hostMove`. Safe: the chip may go on. -/
  | transactionInReset
deriving DecidableEq, Repr

/-- Why a command has no meaning. -/
inductive Refusal where
  /-- The command is not modelled. Raised by no arm of `exec`: every command has its meaning. Safe. -/
  | notModelled (mnemonic : String)
deriving DecidableEq, Repr

/-- The state of the block (10_state.md R30). STATUS.BUSY and STATUS.FAULT are the views `eng = busy`
and `eng = faulted` (10_state.md R38); ID, CWSIZE and the ROMs are constants; `irq` is a function of
`irqen` and `done` (10_state.md R53). -/
structure State where
  /-- ENG, the command engine's state (10_state.md R30, R52). -/
  eng : Engine
  /-- CTRL.IRQEN (10_state.md R34). -/
  irqen : Bool
  /-- STATUS.DONE (10_state.md R36). -/
  done : Bool
  /-- STATUS.OVR (10_state.md R36). -/
  ovr : Bool
  /-- STATUS.FCAUSE (10_state.md R36, R41). -/
  fcause : BitVec 8
  /-- CMDLAST, the value a read of CMD returns (10_state.md R42). -/
  cmdlast : BitVec 32
  /-- ARG0 (10_state.md R43). -/
  arg0 : BitVec 32
  /-- ARG1 (10_state.md R43). -/
  arg1 : BitVec 32
  /-- ARG2 (10_state.md R43). -/
  arg2 : BitVec 32
  /-- RESULT (10_state.md R44). -/
  result : BitVec 32
  /-- FCMD (10_state.md R45). -/
  fcmd : BitVec 32
  /-- LCMD, the latched command word (10_state.md R51). -/
  lcmd : BitVec 32
  /-- LARG0, the latched ARG0 (10_state.md R51). -/
  larg0 : BitVec 32
  /-- LARG1, the latched ARG1 (10_state.md R51). -/
  larg1 : BitVec 32
  /-- LARG2, the latched ARG2 (10_state.md R51). -/
  larg2 : BitVec 32
  /-- CWRAM (10_state.md R49). -/
  cwram : Memory
  /-- The level of the input `rst_n` (10_state.md R54, 70_reset_and_hazards.md R300). -/
  rstN : Bool
  /-- The model's own: the bus response to the last transaction (20_memory.md R80; log entry 8). -/
  response : Option BusResponse
  /-- The model's own: the turns to come, the next one first (20_memory.md R91; log entry 1). -/
  turns : List Turn
deriving DecidableEq, Repr

/-- The block after power-up and hardware reset (10_state.md R55, 70_reset_and_hazards.md R300). The
command latch has no reset value in the spec: 0 is the model's choice (log entry 5). -/
def State.reset : State where
  eng := .idle
  irqen := false
  done := false
  ovr := false
  fcause := 0
  cmdlast := 0
  arg0 := 0
  arg1 := 0
  arg2 := 0
  result := 0
  fcmd := 0
  lcmd := 0
  larg0 := 0
  larg1 := 0
  larg2 := 0
  cwram := []
  rstN := true
  response := none
  turns := []

end Sys2Proof.Machine
end

