-- ==== Sys2Proof/Machine/Flags.lean ====
section
/-!
DEFINITION. The flags: fault cause codes (60_exceptions.md R270), the STATUS and CTRL words software
reads (10_state.md R34, R36), write-1-to-clear (R37) and the interrupt output (R53). The block has no
condition codes (R40).
-/

namespace Sys2Proof.Machine

/-- The FCAUSE code of a cause (60_exceptions.md R270). -/
def causeCode : Cause → BitVec 8
  | .illegalOpcode => 0x01
  | .reservedBits => 0x02
  | .badVersion => 0x03
  | .badMode => 0x04
  | .badSize => 0x05
  | .badOperand => 0x06
  | .logZero => 0x07
  | .genEmpty => 0x08
  | .genTooLong => 0x09
  | .msgEmpty => 0x0A
  | .lenMismatch => 0x0B
  | .range => 0x0C
  | .overlap => 0x0D

/-- STATUS.BUSY (10_state.md R36, R38; log entry 6). -/
def State.busy (s : State) : Bool := s.eng == .busy

/-- STATUS.FAULT (10_state.md R36, R38; log entry 6). -/
def State.fault (s : State) : Bool := s.eng == .faulted

/-- What a read of STATUS returns, reserved bits 0 (10_state.md R36, R47):
`{[31:16] 0, FCAUSE, [7:4] 0, OVR, FAULT, DONE, BUSY}`. -/
def State.statusWord (s : State) : Word :=
  0#16 ++ s.fcause ++ 0#4 ++ BitVec.ofBool s.ovr ++ BitVec.ofBool s.fault
    ++ BitVec.ofBool s.done ++ BitVec.ofBool s.busy

/-- What a read of CTRL returns: IRQEN in bit 1, all other bits 0 (10_state.md R34). -/
def State.ctrlWord (s : State) : Word := 0#30 ++ BitVec.ofBool s.irqen ++ 0#1

/-- A write of STATUS: bit 1 clears DONE, bit 3 clears OVR, nothing else changes (10_state.md R37). -/
def State.writeStatus (s : State) (w : Word) : State :=
  { s with done := s.done && !w.getLsbD 1, ovr := s.ovr && !w.getLsbD 3 }

/-- The interrupt output (10_state.md R53, 60_exceptions.md R277). -/
def State.irq (s : State) : Bool := s.irqen && s.done

end Sys2Proof.Machine
end

