-- ==== Sys2Proof/Machine/Ops.lean ====
section
/-!
DEFINITION. The named operations on the state: CWRAM cells and ranges (10_state.md R49, 20_memory.md
R87, R88), accepting a command (10_state.md R42), ending it, and raising a fault (60_exceptions.md
R272). There is no return from a fault but a reset (60_exceptions.md R275), which is in
Sys2Proof/Machine/Reset.lean.
-/

namespace Sys2Proof.Machine

/-- What a step answers. -/
abbrev Answer := Host.Outcome State Fault Refusal

/-! ## CWRAM cells -/

/-- The byte of cell `a`, or none when the cell is undefined (10_state.md R49). -/
def Memory.read (m : Memory) (a : Nat) : Option Byte :=
  match m with
  | [] => none
  | (x, b) :: rest => if x = a then some b else Memory.read rest a

/-- `CW[a] <- b` (00_scope.md R9). -/
def Memory.write (m : Memory) (a : Nat) (b : Byte) : Memory :=
  match m with
  | [] => [(a, b)]
  | (x, c) :: rest =>
    if a < x then (a, b) :: (x, c) :: rest
    else if a = x then (a, b) :: rest
    else (x, c) :: Memory.write rest a b

/-- `CW[base + t] <- bytes[t]` for every t (00_scope.md R9). -/
def Memory.writeBytes (m : Memory) (base : Nat) (bytes : List Byte) : Memory :=
  match bytes with
  | [] => m
  | b :: rest => Memory.writeBytes (m.write base b) (base + 1) rest

/-- The bytes of the `n` cells from `base`, or the first of them that is undefined
(93_implementation_defined.md I3). -/
def Memory.readBytes (m : Memory) (base n : Nat) : Except Nat (List Byte) :=
  match n with
  | 0 => .ok []
  | n + 1 =>
    match m.read base with
    | none => .error base
    | some b =>
      match Memory.readBytes m (base + 1) n with
      | .error a => .error a
      | .ok bs => .ok (b :: bs)

/-- The cells from `base` on, `n` of them, become undefined (70_reset_and_hazards.md R303). -/
def Memory.erase (m : Memory) (base n : Nat) : Memory :=
  m.filter fun c => decide (¬ (base ≤ c.1 ∧ c.1 < base + n))

/-- The canonical form of CWRAM: addresses strictly rising, and every address below CWRAM_BYTES
(10_state.md R49). -/
abbrev Memory.wf (m : Memory) : Prop :=
  (m.map Prod.fst).Pairwise (· < ·) ∧ ∀ c ∈ m, c.1 < Config.cwramBytes

/-! ## CWRAM ranges -/

/-- A range of cells `base, …, base + len - 1` (20_memory.md R87). -/
structure Range where
  base : Nat
  len : Nat
deriving DecidableEq, Repr

/-- The empty range. -/
def Range.empty : Range := ⟨0, 0⟩

/-- In bounds: `ADDR + LEN ≤ CWRAM_BYTES`, without wrap-around (20_memory.md R87). -/
def Range.inBounds (r : Range) : Bool := decide (r.base + r.len ≤ Config.cwramBytes)

/-- Both non-empty, and they share a cell (20_memory.md R88). -/
def Range.overlaps (a b : Range) : Bool :=
  decide (a.len ≠ 0 ∧ b.len ≠ 0 ∧ a.base < b.base + b.len ∧ b.base < a.base + a.len)

/-- The cell of address `a` lies in the range. -/
def Range.contains (r : Range) (a : Nat) : Bool := decide (r.base ≤ a ∧ a < r.base + r.len)

/-- The ranges of a command that passed its checks: message, block or data; DIVIDE's generator; and
the destination (20_memory.md R87). A range the command has not is empty. -/
structure Ranges where
  source : Range
  generator : Range
  dest : Range
deriving DecidableEq, Repr

/-! ## A command's life -/

/-- The engine takes command word `w`: the accepting case of a CMD write (10_state.md R42). -/
def State.acceptCommand (s : State) (w : Word) : State :=
  { s with cmdlast := w, lcmd := w, larg0 := s.arg0, larg1 := s.arg1, larg2 := s.arg2,
           done := false, eng := .busy }

/-- A write of CMD: accepted when ENG is Idle, else OVR is set and nothing else changes
(10_state.md R42). -/
def State.writeCmd (s : State) (w : Word) : State :=
  if s.eng = .idle then s.acceptCommand w else { s with ovr := true }

/-- The command ends without fault: RESULT, DONE = 1, BUSY = 0, ENG Idle (10_state.md R36, R44, R52). -/
def State.complete (s : State) (r : Word) : State :=
  { s with result := r, done := true, eng := .idle }

/-- The command ends without fault and writes `bytes` from cell `base` (20_memory.md R90). -/
def State.completeWrite (s : State) (base : Nat) (bytes : List Byte) (r : Word) : State :=
  { s with cwram := s.cwram.writeBytes base bytes, result := r, done := true, eng := .idle }

/-- `raise Fault(CODE)`: the fault entry of the block, as one step (60_exceptions.md R272). FAULT and
BUSY are views of ENG. -/
def State.raiseFault (s : State) (c : Cause) : State :=
  { s with fcause := causeCode c, fcmd := s.lcmd, done := true, eng := .faulted }

/-- The end of a command whose only output is RESULT. -/
def finish (s : State) (r : Except Cause Word) : Answer :=
  match r with
  | .error c => .next (s.raiseFault c)
  | .ok w => .next (s.complete w)

/-- A command that uses CWRAM goes on with its ranges, or faults with the first check that failed
(60_exceptions.md R273). -/
def withRanges (s : State) (r : Except Cause Ranges) (k : Ranges → Answer) : Answer :=
  match r with
  | .error c => .next (s.raiseFault c)
  | .ok rs => k rs

/-- A command goes on with the bytes of a source range. An undefined cell stops the model
(93_implementation_defined.md I3; log entries 3, 16). -/
def readThen (s : State) (r : Range) (k : List Byte → Answer) : Answer :=
  match s.cwram.readBytes r.base r.len with
  | .error a => .fault (.undefinedCell a)
  | .ok bytes => k bytes

end Sys2Proof.Machine
end

