-- ==== Sys2Proof/Machine/Roms.lean ====
section
/-!
DEFINITION. The contents of the table ROMs (10_state.md R50) and the reads of them. Every table is a
constant (00_scope.md R19). The tables the spec supplies from general knowledge are named in
93_implementation_defined.md G2 to G6 (log entry 15). Each read is a total function; an index outside
its table reads 0, which no command ever does (log entry 20).
-/

namespace Sys2Proof.Machine

/-! ## EXP and LOG (40_gf_engine.md R140, R141) -/

/-- EXP ROM, `exp_to_field` (40_gf_engine.md R140). -/
def expTable : List Nat :=
  [1, 2, 4, 8, 16, 32, 64, 128, 29, 58, 116, 232, 205, 135, 19, 38] ++
  [76, 152, 45, 90, 180, 117, 234, 201, 143, 3, 6, 12, 24, 48, 96, 192] ++
  [157, 39, 78, 156, 37, 74, 148, 53, 106, 212, 181, 119, 238, 193, 159, 35] ++
  [70, 140, 5, 10, 20, 40, 80, 160, 93, 186, 105, 210, 185, 111, 222, 161] ++
  [95, 190, 97, 194, 153, 47, 94, 188, 101, 202, 137, 15, 30, 60, 120, 240] ++
  [253, 231, 211, 187, 107, 214, 177, 127, 254, 225, 223, 163, 91, 182, 113, 226] ++
  [217, 175, 67, 134, 17, 34, 68, 136, 13, 26, 52, 104, 208, 189, 103, 206] ++
  [129, 31, 62, 124, 248, 237, 199, 147, 59, 118, 236, 197, 151, 51, 102, 204] ++
  [133, 23, 46, 92, 184, 109, 218, 169, 79, 158, 33, 66, 132, 21, 42, 84] ++
  [168, 77, 154, 41, 82, 164, 85, 170, 73, 146, 57, 114, 228, 213, 183, 115] ++
  [230, 209, 191, 99, 198, 145, 63, 126, 252, 229, 215, 179, 123, 246, 241, 255] ++
  [227, 219, 171, 75, 150, 49, 98, 196, 149, 55, 110, 220, 165, 87, 174, 65] ++
  [130, 25, 50, 100, 200, 141, 7, 14, 28, 56, 112, 224, 221, 167, 83, 166] ++
  [81, 162, 89, 178, 121, 242, 249, 239, 195, 155, 43, 86, 172, 69, 138, 9] ++
  [18, 36, 72, 144, 61, 122, 244, 245, 247, 243, 251, 235, 203, 139, 11, 22] ++
  [44, 88, 176, 125, 250, 233, 207, 131, 27, 54, 108, 216, 173, 71, 142, 1]

/-- LOG ROM, `field_to_exp`; the unused entry 0 holds 0 (40_gf_engine.md R141). -/
def logTable : List Nat :=
  [0, 0, 1, 25, 2, 50, 26, 198, 3, 223, 51, 238, 27, 104, 199, 75] ++
  [4, 100, 224, 14, 52, 141, 239, 129, 28, 193, 105, 248, 200, 8, 76, 113] ++
  [5, 138, 101, 47, 225, 36, 15, 33, 53, 147, 142, 218, 240, 18, 130, 69] ++
  [29, 181, 194, 125, 106, 39, 249, 185, 201, 154, 9, 120, 77, 228, 114, 166] ++
  [6, 191, 139, 98, 102, 221, 48, 253, 226, 152, 37, 179, 16, 145, 34, 136] ++
  [54, 208, 148, 206, 143, 150, 219, 189, 241, 210, 19, 92, 131, 56, 70, 64] ++
  [30, 66, 182, 163, 195, 72, 126, 110, 107, 58, 40, 84, 250, 133, 186, 61] ++
  [202, 94, 155, 159, 10, 21, 121, 43, 78, 212, 229, 172, 115, 243, 167, 87] ++
  [7, 112, 192, 247, 140, 128, 99, 13, 103, 74, 222, 237, 49, 197, 254, 24] ++
  [227, 165, 153, 119, 38, 184, 180, 124, 17, 68, 146, 217, 35, 32, 137, 46] ++
  [55, 63, 209, 91, 149, 188, 207, 205, 144, 135, 151, 178, 220, 252, 190, 97] ++
  [242, 86, 211, 171, 20, 42, 93, 158, 132, 60, 57, 83, 71, 109, 65, 162] ++
  [31, 45, 67, 216, 183, 123, 164, 118, 196, 23, 73, 236, 127, 12, 111, 246] ++
  [108, 161, 59, 82, 41, 157, 85, 170, 251, 96, 134, 177, 187, 204, 62, 90] ++
  [203, 89, 95, 176, 156, 169, 160, 81, 11, 245, 22, 235, 122, 117, 44, 215] ++
  [79, 174, 213, 233, 230, 231, 173, 232, 116, 214, 244, 234, 168, 80, 88, 175]

/-- `EXP[e]` (40_gf_engine.md R140). -/
def expRom (e : Nat) : Byte := BitVec.ofNat 8 (expTable.getD e 0)

/-- `LOG[v]` (40_gf_engine.md R141). -/
def logRom (v : Nat) : Byte := BitVec.ofNat 8 (logTable.getD v 0)

/-! ## DCW, ECTR and GRP (41_tables.md R176) -/

/-- One row of the per-(version, ECL) table: data codewords, error-correction codewords per block,
and the block count and block size of groups 1 and 2 (41_tables.md R176). -/
structure EccRow where
  dcw : Nat
  ect : Nat
  c1 : Nat
  s1 : Nat
  c2 : Nat
  s2 : Nat
deriving DecidableEq, Repr

/-- The absent row, read by no command. -/
def EccRow.absent : EccRow := ⟨0, 0, 0, 0, 0, 0⟩

/-- The number of blocks of a layout (42_structurer.md R212). -/
def EccRow.blocks (r : EccRow) : Nat := r.c1 + r.c2

/-- The length of STRUCT's output (42_structurer.md R214). -/
def EccRow.total (r : EccRow) : Nat := r.dcw + r.ect * r.blocks

/-- Versions 1 to 5, each L, M, Q, H (41_tables.md R176). -/
def eccRows1 : List EccRow := [
  ⟨19, 7, 1, 19, 0, 0⟩, ⟨16, 10, 1, 16, 0, 0⟩, ⟨13, 13, 1, 13, 0, 0⟩, ⟨9, 17, 1, 9, 0, 0⟩,
  ⟨34, 10, 1, 34, 0, 0⟩, ⟨28, 16, 1, 28, 0, 0⟩, ⟨22, 22, 1, 22, 0, 0⟩, ⟨16, 28, 1, 16, 0, 0⟩,
  ⟨55, 15, 1, 55, 0, 0⟩, ⟨44, 26, 1, 44, 0, 0⟩, ⟨34, 18, 2, 17, 0, 0⟩, ⟨26, 22, 2, 13, 0, 0⟩,
  ⟨80, 20, 1, 80, 0, 0⟩, ⟨64, 18, 2, 32, 0, 0⟩, ⟨48, 26, 2, 24, 0, 0⟩, ⟨36, 16, 4, 9, 0, 0⟩,
  ⟨108, 26, 1, 108, 0, 0⟩, ⟨86, 24, 2, 43, 0, 0⟩, ⟨62, 18, 2, 15, 2, 16⟩, ⟨46, 22, 2, 11, 2, 12⟩]

/-- Versions 6 to 10, each L, M, Q, H (41_tables.md R176). -/
def eccRows6 : List EccRow := [
  ⟨136, 18, 2, 68, 0, 0⟩, ⟨108, 16, 4, 27, 0, 0⟩, ⟨76, 24, 4, 19, 0, 0⟩, ⟨60, 28, 4, 15, 0, 0⟩,
  ⟨156, 20, 2, 78, 0, 0⟩, ⟨124, 18, 4, 31, 0, 0⟩, ⟨88, 18, 2, 14, 4, 15⟩, ⟨66, 26, 4, 13, 1, 14⟩,
  ⟨194, 24, 2, 97, 0, 0⟩, ⟨154, 22, 2, 38, 2, 39⟩, ⟨110, 22, 4, 18, 2, 19⟩, ⟨86, 26, 4, 14, 2, 15⟩,
  ⟨232, 30, 2, 116, 0, 0⟩, ⟨182, 22, 3, 36, 2, 37⟩, ⟨132, 20, 4, 16, 4, 17⟩, ⟨100, 24, 4, 12, 4, 13⟩,
  ⟨274, 18, 2, 68, 2, 69⟩, ⟨216, 26, 4, 43, 1, 44⟩, ⟨154, 24, 6, 19, 2, 20⟩, ⟨122, 28, 6, 15, 2, 16⟩]

/-- Versions 11 to 15, each L, M, Q, H (41_tables.md R176). -/
def eccRows11 : List EccRow := [
  ⟨324, 20, 4, 81, 0, 0⟩, ⟨254, 30, 1, 50, 4, 51⟩, ⟨180, 28, 4, 22, 4, 23⟩, ⟨140, 24, 3, 12, 8, 13⟩,
  ⟨370, 24, 2, 92, 2, 93⟩, ⟨290, 22, 6, 36, 2, 37⟩, ⟨206, 26, 4, 20, 6, 21⟩, ⟨158, 28, 7, 14, 4, 15⟩,
  ⟨428, 26, 4, 107, 0, 0⟩, ⟨334, 22, 8, 37, 1, 38⟩, ⟨244, 24, 8, 20, 4, 21⟩, ⟨180, 22, 12, 11, 4, 12⟩,
  ⟨461, 30, 3, 115, 1, 116⟩, ⟨365, 24, 4, 40, 5, 41⟩, ⟨261, 20, 11, 16, 5, 17⟩, ⟨197, 24, 11, 12, 5, 13⟩,
  ⟨523, 22, 5, 87, 1, 88⟩, ⟨415, 24, 5, 41, 5, 42⟩, ⟨295, 30, 5, 24, 7, 25⟩, ⟨223, 24, 11, 12, 7, 13⟩]

/-- Versions 16 to 20, each L, M, Q, H (41_tables.md R176). -/
def eccRows16 : List EccRow := [
  ⟨589, 24, 5, 98, 1, 99⟩, ⟨453, 28, 7, 45, 3, 46⟩, ⟨325, 24, 15, 19, 2, 20⟩, ⟨253, 30, 3, 15, 13, 16⟩,
  ⟨647, 28, 1, 107, 5, 108⟩, ⟨507, 28, 10, 46, 1, 47⟩, ⟨367, 28, 1, 22, 15, 23⟩, ⟨283, 28, 2, 14, 17, 15⟩,
  ⟨721, 30, 5, 120, 1, 121⟩, ⟨563, 26, 9, 43, 4, 44⟩, ⟨397, 28, 17, 22, 1, 23⟩, ⟨313, 28, 2, 14, 19, 15⟩,
  ⟨795, 28, 3, 113, 4, 114⟩, ⟨627, 26, 3, 44, 11, 45⟩, ⟨445, 26, 17, 21, 4, 22⟩, ⟨341, 26, 9, 13, 16, 14⟩,
  ⟨861, 28, 3, 107, 5, 108⟩, ⟨669, 26, 3, 41, 13, 42⟩, ⟨485, 30, 15, 24, 5, 25⟩, ⟨385, 28, 15, 15, 10, 16⟩]

/-- Versions 21 to 25, each L, M, Q, H (41_tables.md R176). -/
def eccRows21 : List EccRow := [
  ⟨932, 28, 4, 116, 4, 117⟩, ⟨714, 26, 17, 42, 0, 0⟩, ⟨512, 28, 17, 22, 6, 23⟩, ⟨406, 30, 19, 16, 6, 17⟩,
  ⟨1006, 28, 2, 111, 7, 112⟩, ⟨782, 28, 17, 46, 0, 0⟩, ⟨568, 30, 7, 24, 16, 25⟩, ⟨442, 24, 34, 13, 0, 0⟩,
  ⟨1094, 30, 4, 121, 5, 122⟩, ⟨860, 28, 4, 47, 14, 48⟩, ⟨614, 30, 11, 24, 14, 25⟩, ⟨464, 30, 16, 15, 14, 16⟩,
  ⟨1174, 30, 6, 117, 4, 118⟩, ⟨914, 28, 6, 45, 14, 46⟩, ⟨664, 30, 11, 24, 16, 25⟩, ⟨514, 30, 30, 16, 2, 17⟩,
  ⟨1276, 26, 8, 106, 4, 107⟩, ⟨1000, 28, 8, 47, 13, 48⟩, ⟨718, 30, 7, 24, 22, 25⟩, ⟨538, 30, 22, 15, 13, 16⟩]

/-- Versions 26 to 30, each L, M, Q, H (41_tables.md R176). -/
def eccRows26 : List EccRow := [
  ⟨1370, 28, 10, 114, 2, 115⟩, ⟨1062, 28, 19, 46, 4, 47⟩, ⟨754, 28, 28, 22, 6, 23⟩, ⟨596, 30, 33, 16, 4, 17⟩,
  ⟨1468, 30, 8, 122, 4, 123⟩, ⟨1128, 28, 22, 45, 3, 46⟩, ⟨808, 30, 8, 23, 26, 24⟩, ⟨628, 30, 12, 15, 28, 16⟩,
  ⟨1531, 30, 3, 117, 10, 118⟩, ⟨1193, 28, 3, 45, 23, 46⟩, ⟨871, 30, 4, 24, 31, 25⟩, ⟨661, 30, 11, 15, 31, 16⟩,
  ⟨1631, 30, 7, 116, 7, 117⟩, ⟨1267, 28, 21, 45, 7, 46⟩, ⟨911, 30, 1, 23, 37, 24⟩, ⟨701, 30, 19, 15, 26, 16⟩,
  ⟨1735, 30, 5, 115, 10, 116⟩, ⟨1373, 28, 19, 47, 10, 48⟩, ⟨985, 30, 15, 24, 25, 25⟩, ⟨745, 30, 23, 15, 25, 16⟩]

/-- Versions 31 to 35, each L, M, Q, H (41_tables.md R176). -/
def eccRows31 : List EccRow := [
  ⟨1843, 30, 13, 115, 3, 116⟩, ⟨1455, 28, 2, 46, 29, 47⟩, ⟨1033, 30, 42, 24, 1, 25⟩, ⟨793, 30, 23, 15, 28, 16⟩,
  ⟨1955, 30, 17, 115, 0, 0⟩, ⟨1541, 28, 10, 46, 23, 47⟩, ⟨1115, 30, 10, 24, 35, 25⟩, ⟨845, 30, 19, 15, 35, 16⟩,
  ⟨2071, 30, 17, 115, 1, 116⟩, ⟨1631, 28, 14, 46, 21, 47⟩, ⟨1171, 30, 29, 24, 19, 25⟩, ⟨901, 30, 11, 15, 46, 16⟩,
  ⟨2191, 30, 13, 115, 6, 116⟩, ⟨1725, 28, 14, 46, 23, 47⟩, ⟨1231, 30, 44, 24, 7, 25⟩, ⟨961, 30, 59, 16, 1, 17⟩,
  ⟨2306, 30, 12, 121, 7, 122⟩, ⟨1812, 28, 12, 47, 26, 48⟩, ⟨1286, 30, 39, 24, 14, 25⟩, ⟨986, 30, 22, 15, 41, 16⟩]

/-- Versions 36 to 40, each L, M, Q, H (41_tables.md R176). -/
def eccRows36 : List EccRow := [
  ⟨2434, 30, 6, 121, 14, 122⟩, ⟨1914, 28, 6, 47, 34, 48⟩, ⟨1354, 30, 46, 24, 10, 25⟩, ⟨1054, 30, 2, 15, 64, 16⟩,
  ⟨2566, 30, 17, 122, 4, 123⟩, ⟨1992, 28, 29, 46, 14, 47⟩, ⟨1426, 30, 49, 24, 10, 25⟩, ⟨1096, 30, 24, 15, 46, 16⟩,
  ⟨2702, 30, 4, 122, 18, 123⟩, ⟨2102, 28, 13, 46, 32, 47⟩, ⟨1502, 30, 48, 24, 14, 25⟩, ⟨1142, 30, 42, 15, 32, 16⟩,
  ⟨2812, 30, 20, 117, 4, 118⟩, ⟨2216, 28, 40, 47, 7, 48⟩, ⟨1582, 30, 43, 24, 22, 25⟩, ⟨1222, 30, 10, 15, 67, 16⟩,
  ⟨2956, 30, 19, 118, 6, 119⟩, ⟨2334, 28, 18, 47, 31, 48⟩, ⟨1666, 30, 34, 24, 34, 25⟩, ⟨1276, 30, 20, 15, 61, 16⟩]

/-- The 160 rows of 41_tables.md R176, by version 1..40 and then L, M, Q, H. -/
def eccTable : List EccRow :=
  eccRows1 ++ eccRows6 ++ eccRows11 ++ eccRows16 ++ eccRows21 ++ eccRows26 ++ eccRows31 ++ eccRows36

/-- `DCW_TABLE[v][e]`, `ECT_TABLE[v][e]` and `GROUP_TABLE[v][e]` as one row; the row index is v - 1
inside the ROM (41_tables.md R176, R189). -/
def eccRow (v : Nat) (e : Ecl) : EccRow :=
  eccTable.getD ((v - 1) * 4 + e.code.toNat) EccRow.absent

/-! ## CCIR (41_tables.md R180) -/

/-- The version band: 0 for 1..9, 1 for 10..26, 2 for 27..40 (41_tables.md R180). -/
def cciBand (v : Nat) : Nat := if v ≤ 9 then 0 else if v ≤ 26 then 1 else 2

/-- `CCI_TABLE[band]` for a mode, as the widths of bands 0, 1 and 2 (41_tables.md R180). -/
def cciRow : Mode → List Nat
  | .numeric => [10, 12, 14]
  | .alphanumeric => [9, 11, 13]
  | .byte => [8, 16, 16]

/-- `CCI_TABLE[band(v)][m]` (41_tables.md R172, R180). -/
def cciRom (v : Nat) (m : Mode) : Nat := (cciRow m).getD (cciBand v) 0

/-! ## GEN, the generator catalog (41_tables.md R183) -/

/-- Slots k = 0..15 (41_tables.md R183). -/
def genLow : List (List Nat) := [
  [0],
  [0, 0],
  [0, 25, 1],
  [0, 198, 199, 3],
  [0, 75, 249, 78, 6],
  [0, 113, 164, 166, 119, 10],
  [0, 166, 0, 134, 5, 176, 15],
  [0, 87, 229, 146, 149, 238, 102, 21],
  [0, 175, 238, 208, 249, 215, 252, 196, 28],
  [0, 95, 246, 137, 231, 235, 149, 11, 123, 36],
  [0, 251, 67, 46, 61, 118, 70, 64, 94, 32, 45],
  [0, 220, 192, 91, 194, 172, 177, 209, 116, 227, 10, 55],
  [0, 102, 43, 98, 121, 187, 113, 198, 143, 131, 87, 157, 66],
  [0, 74, 152, 176, 100, 86, 100, 106, 104, 130, 218, 206, 140, 78],
  [0, 199, 249, 155, 48, 190, 124, 218, 137, 216, 87, 207, 59, 22, 91],
  [0, 8, 183, 61, 91, 202, 37, 51, 58, 58, 237, 140, 124, 5, 99, 105]]

/-- Slots k = 16..30 (41_tables.md R183). -/
def genHigh : List (List Nat) := [
  [0, 120, 104, 107, 109, 102, 161, 76, 3, 91, 191, 147, 169, 182, 194, 225, 120],
  [0, 43, 139, 206, 78, 43, 239, 123, 206, 214, 147, 24, 99, 150, 39, 243, 163, 136],
  [0, 215, 234, 158, 94, 184, 97, 118, 170, 79, 187, 152, 148, 252, 179, 5, 98, 96, 153],
  [0, 67, 3, 105, 153, 52, 90, 83, 17, 150, 159, 44, 128, 153, 133, 252, 222, 138, 220, 171],
  [0, 17, 60, 79, 50, 61, 163, 26, 187, 202, 180, 221, 225, 83, 239, 156, 164, 212, 212, 188, 190],
  [0, 240, 233, 104, 247, 181, 140, 67, 98, 85, 200, 210, 115, 148, 137, 230, 36, 122, 254, 148,
    175, 210],
  [0, 210, 171, 247, 242, 93, 230, 14, 109, 221, 53, 200, 74, 8, 172, 98, 80, 219, 134, 160, 105,
    165, 231],
  [0, 171, 102, 146, 91, 49, 103, 65, 17, 193, 150, 14, 25, 183, 248, 94, 164, 224, 192, 1, 78,
    56, 147, 253],
  [0, 229, 121, 135, 48, 211, 117, 251, 126, 159, 180, 169, 152, 192, 226, 228, 218, 111, 0, 117,
    232, 87, 96, 227, 21],
  [0, 231, 181, 156, 39, 170, 26, 12, 59, 15, 148, 201, 54, 66, 237, 208, 99, 167, 144, 182, 95,
    243, 129, 178, 252, 45],
  [0, 173, 125, 158, 2, 103, 182, 118, 17, 145, 201, 111, 28, 165, 53, 161, 21, 245, 142, 13, 102,
    48, 227, 153, 145, 218, 70],
  [0, 79, 228, 8, 165, 227, 21, 180, 29, 9, 237, 70, 99, 45, 58, 138, 135, 73, 126, 172, 94, 216,
    193, 157, 26, 17, 149, 96],
  [0, 168, 223, 200, 104, 224, 234, 108, 180, 110, 190, 195, 147, 205, 27, 232, 201, 21, 43, 245,
    87, 42, 195, 212, 119, 242, 37, 9, 123],
  [0, 156, 45, 183, 29, 151, 219, 54, 96, 249, 24, 136, 5, 241, 175, 189, 28, 75, 234, 150, 148,
    23, 9, 202, 162, 68, 250, 140, 24, 151],
  [0, 41, 173, 145, 152, 216, 31, 179, 182, 50, 48, 110, 86, 239, 96, 222, 125, 42, 173, 226, 193,
    224, 130, 156, 37, 251, 216, 238, 40, 192, 180]]

/-- The generator catalog, 31 slots; slot k holds k + 1 exponents, highest degree first
(41_tables.md R183). -/
def genTable : List (List Nat) := genLow ++ genHigh

/-- `GEN[k]` (41_tables.md R183). -/
def genRom (k : Nat) : List Byte := (genTable.getD k []).map (BitVec.ofNat 8)

/-! ## FMT (41_tables.md R187) -/

/-- `FMT_TABLE[e]`, the words of masks 0..7 (41_tables.md R187). -/
def fmtRow : Ecl → List Nat
  | .L => [0x77C4, 0x72F3, 0x7DAA, 0x789D, 0x662F, 0x6318, 0x6C41, 0x6976]
  | .M => [0x5412, 0x5125, 0x5E7C, 0x5B4B, 0x45F9, 0x40CE, 0x4F97, 0x4AA0]
  | .Q => [0x355F, 0x3068, 0x3F31, 0x3A06, 0x24B4, 0x2183, 0x2EDA, 0x2BED]
  | .H => [0x1689, 0x13BE, 0x1CE7, 0x19D0, 0x0762, 0x0255, 0x0D0C, 0x083B]

/-- `FMT_TABLE[e][m]` (41_tables.md R187). -/
def fmtRom (e : Ecl) (m : Nat) : Nat := (fmtRow e).getD m 0

/-! ## PSR (43_mask_penalty.md R241, R242) -/

/-- PSR ROM with `PERCENT_RULE` = PREV_NEXT (43_mask_penalty.md R241). -/
def psrPrevNext : List Nat :=
  [90, 90, 90, 90, 90, 80, 80, 80, 80, 80, 70, 70, 70, 70, 70, 60] ++
  [60, 60, 60, 60, 50, 50, 50, 50, 50, 40, 40, 40, 40, 40, 30, 30] ++
  [30, 30, 30, 20, 20, 20, 20, 20, 10, 10, 10, 10, 10, 0, 0, 0] ++
  [0, 0, 0, 0, 0, 0, 0, 10, 10, 10, 10, 10, 20, 20, 20, 20] ++
  [20, 30, 30, 30, 30, 30, 40, 40, 40, 40, 40, 50, 50, 50, 50, 50] ++
  [60, 60, 60, 60, 60, 70, 70, 70, 70, 70, 80, 80, 80, 80, 80, 90] ++
  [90, 90, 90, 90, 100, 255, 255, 255, 255, 255, 255, 255, 255, 255, 255, 255] ++
  [255, 255, 255, 255, 255, 255, 255, 255, 255, 255, 255, 255, 255, 255, 255, 255] ++
  [255, 255, 255, 255, 255, 255, 255, 255, 255, 255, 255, 255, 255, 255, 255, 255] ++
  [255, 255, 255, 255, 255, 255, 255, 255, 255, 255, 255, 255, 255, 255, 255, 255] ++
  [255, 255, 255, 255, 255, 255, 255, 255, 255, 255, 255, 255, 255, 255, 255, 255] ++
  [255, 255, 255, 255, 255, 255, 255, 255, 255, 255, 255, 255, 255, 255, 255, 255] ++
  [255, 255, 255, 255, 255, 255, 255, 255, 255, 255, 255, 255, 255, 255, 255, 255] ++
  [255, 255, 255, 255, 255, 255, 255, 255, 255, 255, 255, 255, 255, 255, 255, 255] ++
  [255, 255, 255, 255, 255, 255, 255, 255, 255, 255, 255, 255, 255, 255, 255, 255] ++
  [255, 255, 255, 255, 255, 255, 255, 255, 255, 255, 255, 255, 255, 255, 255, 255]

/-- The alternative reading FLOOR_ABS: `10 * floor(|p - 50| / 5)` up to 100, 255 above
(43_mask_penalty.md R242). -/
def psrFloorAbs (p : Nat) : Nat :=
  if p ≤ 100 then 10 * (((p - 50) + (50 - p)) / 5) else 255

/-- `PSR[p]` under a reading of the condition-4 rule (43_mask_penalty.md R241, R242). -/
def psrOf (rule : PercentRule) (p : Nat) : Nat :=
  match rule with
  | .prevNext => psrPrevNext.getD p 0
  | .floorAbs => psrFloorAbs p

/-- `PSR[p]` of this hardware (43_mask_penalty.md R240, R242; log entry 13). -/
def psrRom (p : Nat) : Nat := psrOf Config.percentRule p

/-! ## TRL5 to TRL11 (43_mask_penalty.md R245) -/

/-- TRL_5 with `TRAIL_TABLE` = RUN_PENALTY (43_mask_penalty.md R245). -/
def trl5 : List Nat :=
  [3, 3]

/-- TRL_6 with `TRAIL_TABLE` = RUN_PENALTY (43_mask_penalty.md R245). -/
def trl6 : List Nat :=
  [4, 3, 3, 4]

/-- TRL_7 with `TRAIL_TABLE` = RUN_PENALTY (43_mask_penalty.md R245). -/
def trl7 : List Nat :=
  [5, 3, 3, 4, 4, 3, 3, 5]

/-- TRL_8 with `TRAIL_TABLE` = RUN_PENALTY (43_mask_penalty.md R245). -/
def trl8 : List Nat :=
  [6, 3, 3, 4, 4, 3, 3, 5, 5, 3, 3, 4, 4, 3, 3, 6]

/-- TRL_9 with `TRAIL_TABLE` = RUN_PENALTY (43_mask_penalty.md R245). -/
def trl9 : List Nat :=
  [7, 3, 3, 4, 4, 3, 3, 5, 5, 3, 3, 4, 4, 3, 3, 6] ++
  [6, 3, 3, 4, 4, 3, 3, 5, 5, 3, 3, 4, 4, 3, 3, 7]

/-- TRL_10 with `TRAIL_TABLE` = RUN_PENALTY (43_mask_penalty.md R245). -/
def trl10 : List Nat :=
  [8, 3, 3, 4, 4, 3, 3, 5, 5, 3, 3, 4, 4, 3, 3, 6] ++
  [6, 3, 3, 4, 4, 3, 3, 5, 5, 3, 3, 4, 4, 3, 3, 7] ++
  [7, 3, 3, 4, 4, 3, 3, 5, 5, 3, 3, 4, 4, 3, 3, 6] ++
  [6, 3, 3, 4, 4, 3, 3, 5, 5, 3, 3, 4, 4, 3, 3, 8]

/-- TRL_11 with `TRAIL_TABLE` = RUN_PENALTY (43_mask_penalty.md R245). -/
def trl11 : List Nat :=
  [9, 3, 3, 4, 4, 3, 3, 5, 5, 3, 3, 4, 4, 3, 3, 6] ++
  [6, 3, 3, 4, 4, 3, 3, 5, 5, 3, 3, 4, 4, 3, 3, 7] ++
  [7, 3, 3, 4, 4, 3, 3, 5, 5, 3, 3, 4, 4, 3, 3, 6] ++
  [6, 3, 3, 4, 4, 3, 3, 5, 5, 3, 3, 4, 4, 3, 3, 8] ++
  [8, 3, 3, 4, 4, 3, 3, 5, 5, 3, 3, 4, 4, 3, 3, 6] ++
  [6, 3, 3, 4, 4, 3, 3, 5, 5, 3, 3, 4, 4, 3, 3, 7] ++
  [7, 3, 3, 4, 4, 3, 3, 5, 5, 3, 3, 4, 4, 3, 3, 6] ++
  [6, 3, 3, 4, 4, 3, 3, 5, 5, 3, 3, 4, 4, 3, 3, 9]

/-- `TRL_s` under a value of `TRAIL_TABLE`, for s = 5..11 (43_mask_penalty.md R245). -/
def trlOf (table : TrailTable) (s : Nat) : List Nat :=
  match table with
  | .runPenalty => [trl5, trl6, trl7, trl8, trl9, trl10, trl11].getD (s - 5) []

/-- `TRL_s[idx]` of this hardware (43_mask_penalty.md R243, R245; log entry 14). -/
def trlRom (s idx : Nat) : Nat := (trlOf Config.trailTable s).getD idx 0

end Sys2Proof.Machine
end

