-- ==== Sys2Proof/Machine/Operands.lean ====
section
/-!
DEFINITION. The operand forms: half-words and whole registers of the command latch (30_encoding.md
R114, R115), the value checks of VER, MODE and SIZE (R118), and the range checks every command that
uses CWRAM shares (20_memory.md R87, R88).
-/

namespace Sys2Proof.Machine

/-! ## Operand half-words and registers (30_encoding.md R114, R115) -/

/-- Bits [15:0], an address operand. -/
def lowHalf (w : Word) : Nat := (w.extractLsb' 0 16).toNat

/-- Bits [31:16], a length operand. -/
def highHalf (w : Word) : Nat := (w.extractLsb' 16 16).toNat

/-- The message, block or data range `{MLEN, MADDR}` of LARG0. -/
def State.sourceRange (s : State) : Range := ⟨lowHalf s.larg0, highHalf s.larg0⟩

/-- The generator range `{GLEN, GADDR}` of LARG1. -/
def State.generatorRange (s : State) : Range := ⟨lowHalf s.larg1, highHalf s.larg1⟩

/-- The destination address DADDR or OADDR of LARG2. -/
def State.destAddr (s : State) : Nat := lowHalf s.larg2

/-- LARG2[31:16], which must be 0. -/
def State.destUpper (s : State) : Nat := highHalf s.larg2

/-- The whole register LARG0, as EXP, LOG, PSCORE and TRAIL read it. -/
def State.operand (s : State) : Nat := s.larg0.toNat

/-! ## Field checks (30_encoding.md R118) -/

/-- `1 <= VER <= 40`. -/
def versionLegal (ver : BitVec 6) : Bool := decide (1 ≤ ver.toNat ∧ ver.toNat ≤ 40)

/-- `5 <= SIZE <= 11`. -/
def sizeLegal (size : BitVec 4) : Bool := decide (5 ≤ size.toNat ∧ size.toNat ≤ 11)

/-- The table row of a (version, ECL), or BAD_VERSION (30_encoding.md R118, 41_tables.md R189). -/
def checkedRow (ver : BitVec 6) (ecl : Ecl) : Except Cause EccRow :=
  if versionLegal ver then .ok (eccRow ver.toNat ecl) else .error .badVersion

/-! ## Range checks (20_memory.md R87, R88; 60_exceptions.md R273) -/

/-- RANGE when a range is out of bounds, then OVERLAP when the destination overlaps a source, else
the ranges. -/
def checkedRanges (r : Ranges) : Except Cause Ranges :=
  if ¬ (r.source.inBounds ∧ r.generator.inBounds ∧ r.dest.inBounds) then .error .range
  else if r.dest.overlaps r.source ∨ r.dest.overlaps r.generator then .error .overlap
  else .ok r

end Sys2Proof.Machine
end

