-- ==== Sys2Proof/Machine/Galois.lean ====
section
/-!
DEFINITION. The Galois-field engine: EXP, LOG and DIVIDE (40_gf_engine.md).
-/

namespace Sys2Proof.Machine

/-! ## EXP and LOG -/

/-- EXP's RESULT or fault (40_gf_engine.md R144). -/
def expResult (s : State) : Except Cause Word :=
  if s.operand > 255 then .error .badOperand
  else .ok ((expRom s.operand).setWidth 32)

/-- EXP (40_gf_engine.md R144). -/
def execExp (s : State) : Answer := finish s (expResult s)

/-- LOG's RESULT or fault (40_gf_engine.md R145). -/
def logResult (s : State) : Except Cause Word :=
  if s.operand > 255 then .error .badOperand
  else if s.operand = 0 then .error .logZero
  else .ok ((logRom s.operand).setWidth 32)

/-- LOG (40_gf_engine.md R145). -/
def execLog (s : State) : Answer := finish s (logResult s)

/-! ## The division function -/

/-- The product of two field elements (00_scope.md R11). -/
def gfMul (x y : Byte) : Byte :=
  if x = 0 ∨ y = 0 then 0
  else expRom (((logRom x.toNat).toNat + (logRom y.toNat).toNat) % 255)

/-- The inner loop of R146 for pivot position `i` with `a = LOG[buf[i]]`:
`for j in 0..k: buf[i + j] <- buf[i + j] ⊕ EXP[(g[j] + a) mod 255]`. -/
def divRow (g : List Byte) (a i : Nat) (buf : List Byte) : List Byte :=
  (List.range g.length).foldl
    (fun b j => b.modify (i + j) (· ^^^ expRom (((g.getD j 0).toNat + a) % 255))) buf

/-- One turn of the outer loop of R146: a zero coefficient is skipped. -/
def divPivot (g : List Byte) (buf : List Byte) (i : Nat) : List Byte :=
  let c := buf.getD i 0
  if c = 0 then buf else divRow g (logRom c.toNat).toNat i buf

/-- `buf` after the outer loop of R146, which runs over the message positions only
(40_gf_engine.md R146, R147). -/
def divBuffer (m g : List Byte) : List Byte :=
  (List.range m.length).foldl (divPivot g) (m ++ List.replicate (g.length - 1) 0)

/-- `DIV(m, g) = buf[len(m) .. len(m)+len(g)-1)`, the k-byte remainder (40_gf_engine.md R146). -/
def div (m g : List Byte) : List Byte := (divBuffer m g).drop m.length

/-! ## DIVIDE -/

/-- The checks of DIVIDE, in order, and its ranges (40_gf_engine.md R146). -/
def divideRanges (s : State) : Except Cause Ranges :=
  if s.destUpper ≠ 0 then .error .badOperand
  else if s.generatorRange.len = 0 then .error .genEmpty
  else if s.generatorRange.len > Config.genMaxLen then .error .genTooLong
  else if s.sourceRange.len = 0 ∧ s.generatorRange.len - 1 > 0 then .error .msgEmpty
  else checkedRanges ⟨s.sourceRange, s.generatorRange, ⟨s.destAddr, s.generatorRange.len - 1⟩⟩

/-- DIVIDE (40_gf_engine.md R146). -/
def execDivide (s : State) : Answer :=
  withRanges s (divideRanges s) fun r =>
    readThen s r.generator fun g =>
      readThen s r.source fun m =>
        .next (s.completeWrite r.dest.base (div m g) (BitVec.ofNat 32 r.dest.len))

end Sys2Proof.Machine
end

