-- ==== Sys2Proof/Machine/Penalty.lean ====
section
/-!
DEFINITION. The mask penalty ROM: PSCORE and TRAIL (43_mask_penalty.md).
-/

namespace Sys2Proof.Machine

/-- PSCORE's RESULT or fault (43_mask_penalty.md R240). -/
def pscoreResult (s : State) : Except Cause Word :=
  if s.operand > 255 then .error .badOperand
  else .ok (BitVec.ofNat 32 (psrRom s.operand))

/-- PSCORE (43_mask_penalty.md R240). -/
def execPscore (s : State) : Answer := finish s (pscoreResult s)

/-- The penalty of an in-range buffer: 0 unless bits [4:0] are uniform (43_mask_penalty.md R243). -/
def trailing (size buf : Nat) : Nat :=
  if buf % 32 ≠ 0 ∧ buf % 32 ≠ 31 then 0 else trlRom size (buf >>> 4)

/-- TRAIL's RESULT or fault: BAD_SIZE before BAD_OPERAND (43_mask_penalty.md R243,
30_encoding.md R118). -/
def trailResult (size : BitVec 4) (s : State) : Except Cause Word :=
  if ¬ sizeLegal size then .error .badSize
  else if s.operand ≥ 2 ^ size.toNat then .error .badOperand
  else .ok (BitVec.ofNat 32 (trailing size.toNat s.operand))

/-- TRAIL (43_mask_penalty.md R243). -/
def execTrail (size : BitVec 4) (s : State) : Answer := finish s (trailResult size s)

end Sys2Proof.Machine
end

