-- ==== Sys2Proof/Machine/Structurer.lean ====
section
/-!
DEFINITION. The codeword structurer: RSENC and STRUCT (42_structurer.md).
-/

namespace Sys2Proof.Machine

/-! ## RSENC -/

/-- The checks of RSENC, in order, and its ranges (42_structurer.md R210). -/
def rsencRanges (ver : BitVec 6) (ecl : Ecl) (s : State) : Except Cause Ranges :=
  match checkedRow ver ecl with
  | .error c => .error c
  | .ok row =>
    if s.destUpper ≠ 0 then .error .badOperand
    else if s.sourceRange.len = 0 then .error .msgEmpty
    else checkedRanges ⟨s.sourceRange, Range.empty, ⟨s.destAddr, row.ect⟩⟩

/-- RSENC (42_structurer.md R210). -/
def execRsenc (ver : BitVec 6) (ecl : Ecl) (s : State) : Answer :=
  withRanges s (rsencRanges ver ecl s) fun r =>
    readThen s r.source fun m =>
      .next (s.completeWrite r.dest.base (div m (genRom r.dest.len)) (BitVec.ofNat 32 r.dest.len))

/-! ## The interleaver (42_structurer.md R212) -/

/-- `B[b]`: group 1 first, contiguous. -/
def dataBlock (row : EccRow) (d : List Byte) (b : Nat) : List Byte :=
  if b < row.c1 then (d.drop (b * row.s1)).take row.s1
  else (d.drop (row.c1 * row.s1 + (b - row.c1) * row.s2)).take row.s2

/-- The blocks of the data, in order. -/
def dataBlocks (row : EccRow) (d : List Byte) : List (List Byte) :=
  (List.range row.blocks).map (dataBlock row d)

/-- Step 4: at each position i the group-1 blocks with `i < s1`, then the group-2 blocks with
`i < s2`. -/
def interleaveData (row : EccRow) (blocks : List (List Byte)) : List Byte :=
  (List.range (max row.s1 row.s2)).flatMap fun i =>
    (if i < row.s1 then (blocks.take row.c1).map (fun b => b.getD i 0) else [])
      ++ (if i < row.s2 then (blocks.drop row.c1).map (fun b => b.getD i 0) else [])

/-- Steps 2 and 3: `E[j*nb + b] <- R_b[j]`, listed from E[0]. -/
def interleaveErrors (k : Nat) (remainders : List (List Byte)) : List Byte :=
  (List.range k).flatMap fun j => remainders.map (fun r => r.getD j 0)

/-- `out` of R212: the interleaved data, then the interleaved remainders. -/
def structured (row : EccRow) (d : List Byte) : List Byte :=
  interleaveData row (dataBlocks row d)
    ++ interleaveErrors row.ect ((dataBlocks row d).map fun b => div b (genRom row.ect))

/-! ## STRUCT -/

/-- The checks of STRUCT, in order, and its ranges (42_structurer.md R212). -/
def structRanges (ver : BitVec 6) (ecl : Ecl) (s : State) : Except Cause Ranges :=
  match checkedRow ver ecl with
  | .error c => .error c
  | .ok row =>
    if s.destUpper ≠ 0 then .error .badOperand
    else if s.sourceRange.len ≠ row.dcw then .error .lenMismatch
    else checkedRanges ⟨s.sourceRange, Range.empty, ⟨s.destAddr, row.total⟩⟩

/-- STRUCT (42_structurer.md R212). -/
def execStruct (ver : BitVec 6) (ecl : Ecl) (s : State) : Answer :=
  withRanges s (structRanges ver ecl s) fun r =>
    readThen s r.source fun d =>
      .next (s.completeWrite r.dest.base (structured (eccRow ver.toNat ecl) d)
        (BitVec.ofNat 32 r.dest.len))

end Sys2Proof.Machine
end

