-- ==== Sys2Proof/Machine/Tables.lean ====
section
/-!
DEFINITION. The capacity and structure tables: DCW, DBITS, CCIB, GROUPS, ECT, GETPOLY and FMTINFO
(41_tables.md).
-/

namespace Sys2Proof.Machine

/-- RESULT as a number computed from the row of a (version, ECL), or BAD_VERSION. -/
def rowResult (ver : BitVec 6) (ecl : Ecl) (f : EccRow → Word) : Except Cause Word :=
  match checkedRow ver ecl with
  | .error c => .error c
  | .ok row => .ok (f row)

/-- DCW (41_tables.md R170). -/
def execDcw (ver : BitVec 6) (ecl : Ecl) (s : State) : Answer :=
  finish s (rowResult ver ecl fun row => BitVec.ofNat 32 row.dcw)

/-- DBITS (41_tables.md R171). -/
def execDbits (ver : BitVec 6) (ecl : Ecl) (s : State) : Answer :=
  finish s (rowResult ver ecl fun row => BitVec.ofNat 32 (row.dcw * 8))

/-- CCIB's RESULT or fault: BAD_VERSION before BAD_MODE (41_tables.md R172, 30_encoding.md R118). -/
def ccibResult (ver : BitVec 6) (mode : BitVec 2) : Except Cause Word :=
  if versionLegal ver then
    match Mode.ofCode mode with
    | none => .error .badMode
    | some m => .ok (BitVec.ofNat 32 (cciRom ver.toNat m))
  else .error .badVersion

/-- CCIB (41_tables.md R172). -/
def execCcib (ver : BitVec 6) (mode : BitVec 2) (s : State) : Answer :=
  finish s (ccibResult ver mode)

/-- `{s2[7:0], c2[7:0], s1[7:0], c1[7:0]}` (41_tables.md R173). -/
def packGroups (row : EccRow) : Word :=
  BitVec.ofNat 8 row.s2 ++ BitVec.ofNat 8 row.c2 ++ BitVec.ofNat 8 row.s1 ++ BitVec.ofNat 8 row.c1

/-- GROUPS (41_tables.md R173). -/
def execGroups (ver : BitVec 6) (ecl : Ecl) (s : State) : Answer :=
  finish s (rowResult ver ecl packGroups)

/-- ECT (41_tables.md R174). -/
def execEct (ver : BitVec 6) (ecl : Ecl) (s : State) : Answer :=
  finish s (rowResult ver ecl fun row => BitVec.ofNat 32 row.ect)

/-- The checks of GETPOLY, in order, and its ranges: it reads no CWRAM (41_tables.md R175). -/
def getpolyRanges (ver : BitVec 6) (ecl : Ecl) (s : State) : Except Cause Ranges :=
  match checkedRow ver ecl with
  | .error c => .error c
  | .ok row =>
    if s.destUpper ≠ 0 then .error .badOperand
    else checkedRanges ⟨Range.empty, Range.empty, ⟨s.destAddr, row.ect + 1⟩⟩

/-- GETPOLY (41_tables.md R175). -/
def execGetpoly (ver : BitVec 6) (ecl : Ecl) (s : State) : Answer :=
  withRanges s (getpolyRanges ver ecl s) fun r =>
    .next (s.completeWrite r.dest.base (genRom (r.dest.len - 1)) (BitVec.ofNat 32 r.dest.len))

/-- FMTINFO (41_tables.md R185). -/
def execFmtinfo (ecl : Ecl) (mask : BitVec 3) (s : State) : Answer :=
  finish s (.ok (BitVec.ofNat 32 (fmtRom ecl mask.toNat)))

end Sys2Proof.Machine
end

