-- ==== Sys2Proof/Machine/Dispatch.lean ====
section
/-!
DEFINITION. `exec i s`: the engine ends the latched command `i` in one step (20_memory.md R90). One arm
per command; the operands are read from the command latch of `s`.
-/

namespace Sys2Proof.Machine

def exec (i : Instr) (s : State) : Host.Outcome State Fault Refusal :=
  match i with
  | .exp => Sys2Proof.Machine.execExp s
  | .log => Sys2Proof.Machine.execLog s
  | .divide => Sys2Proof.Machine.execDivide s
  | .rsenc ver ecl => Sys2Proof.Machine.execRsenc ver ecl s
  | .struct ver ecl => Sys2Proof.Machine.execStruct ver ecl s
  | .dcw ver ecl => Sys2Proof.Machine.execDcw ver ecl s
  | .dbits ver ecl => Sys2Proof.Machine.execDbits ver ecl s
  | .ccib ver mode => Sys2Proof.Machine.execCcib ver mode s
  | .groups ver ecl => Sys2Proof.Machine.execGroups ver ecl s
  | .ect ver ecl => Sys2Proof.Machine.execEct ver ecl s
  | .getpoly ver ecl => Sys2Proof.Machine.execGetpoly ver ecl s
  | .fmtinfo ecl mask => Sys2Proof.Machine.execFmtinfo ecl mask s
  | .pscore => Sys2Proof.Machine.execPscore s
  | .trail size => Sys2Proof.Machine.execTrail size s

end Sys2Proof.Machine
end

