-- ==== Sys2Proof/Machine/Reset.lean ====
section
/-!
DEFINITION. Soft reset, hardware reset and the abandoned command (70_reset_and_hazards.md R300 to
R303). A reset is the only way out of Faulted (60_exceptions.md R275).
-/

namespace Sys2Proof.Machine

/-- The checks of a command and the ranges it uses; a command that writes no CWRAM has an empty
destination (70_reset_and_hazards.md R303). -/
def commandRanges (i : Instr) (s : State) : Except Cause Ranges :=
  match i with
  | .divide => divideRanges s
  | .rsenc ver ecl => rsencRanges ver ecl s
  | .struct ver ecl => structRanges ver ecl s
  | .getpoly ver ecl => getpolyRanges ver ecl s
  | .exp | .log | .dcw _ _ | .dbits _ _ | .ccib _ _ | .groups _ _ | .ect _ _ | .fmtinfo _ _
  | .pscore | .trail _ => .ok ⟨Range.empty, Range.empty, Range.empty⟩

/-- W of R303: the destination of the latched command, empty when the command would have faulted. -/
def abandonedRange (s : State) : Range :=
  match decode s.lcmd with
  | .error _ => Range.empty
  | .ok i =>
    match commandRanges i s with
    | .error _ => Range.empty
    | .ok r => r.dest

/-- CWRAM after a reset: the cells of W become undefined when a command is running, every other cell
is unchanged (70_reset_and_hazards.md R303; log entry 4). -/
def State.abandonedCwram (s : State) : Memory :=
  if s.eng = .busy then s.cwram.erase (abandonedRange s).base (abandonedRange s).len else s.cwram

/-- The reset values of 10_state.md R55, shared by both resets: the command latch, the `rst_n` level
and the model's own fields are left alone (70_reset_and_hazards.md R302; log entry 5). -/
def State.resetRegisters (s : State) : State :=
  { s with eng := .idle, irqen := false, done := false, ovr := false, fcause := 0, cmdlast := 0,
           arg0 := 0, arg1 := 0, arg2 := 0, result := 0, fcmd := 0, cwram := s.abandonedCwram }

/-- `SoftReset()` (70_reset_and_hazards.md R302). -/
def State.softReset (s : State) : State := s.resetRegisters

/-- A level of `rst_n`: at 0 the block is reset and a running command is abandoned, at 1 it may run
(70_reset_and_hazards.md R300; log entry 9). -/
def State.setRst (s : State) (level : Bool) : State :=
  if level then { s with rstN := true } else { s.resetRegisters with rstN := false }

end Sys2Proof.Machine
end

