-- ==== Sys2Proof/Machine/Bus.lean ====
section
/-!
DEFINITION. The host bus: registers (10_state.md R32 to R48) and the CWRAM window (20_memory.md R80 to
R85). Every transaction is one step and records its response.
-/

namespace Sys2Proof.Machine

/-- The registers of the map (10_state.md R32). -/
inductive Register where
  | id
  | ctrl
  | status
  | cmd
  | arg0
  | arg1
  | arg2
  | result
  | fcmd
  | cwsize
deriving DecidableEq, Repr

/-- The aperture offset of a register (10_state.md R32). -/
def Register.offset : Register → BitVec 14
  | .id => 0x00
  | .ctrl => 0x04
  | .status => 0x08
  | .cmd => 0x0C
  | .arg0 => 0x10
  | .arg1 => 0x14
  | .arg2 => 0x18
  | .result => 0x1C
  | .fcmd => 0x20
  | .cwsize => 0x24

/-- The registers in the order of their offsets (10_state.md R32). -/
def registerMap : List Register :=
  [.id, .ctrl, .status, .cmd, .arg0, .arg1, .arg2, .result, .fcmd, .cwsize]

/-- The number of bytes of an access (20_memory.md R80). -/
def AccessSize.bytes : AccessSize → Nat
  | .byte => 1
  | .half => 2
  | .word => 4

/-- What an access reaches: a register, CWRAM cells from an address, or nothing (20_memory.md R81). -/
inductive Target where
  | register (r : Register)
  | cells (a : Nat)
  | error
deriving DecidableEq, Repr

/-- What an access of size `n` at offset `off` reaches (20_memory.md R81 to R84). -/
def State.target (s : State) (off : BitVec 14) (n : AccessSize) : Target :=
  let o := off.toNat
  if o < Config.registerBytes then
    if n = .word ∧ o % 4 = 0 then
      match registerMap[o / 4]? with
      | some r => .register r
      | none => .error
    else .error
  else if o < Config.cwramBase then .error
  else if (o - Config.cwramBase) % n.bytes = 0 ∧ s.eng ≠ .busy then .cells (o - Config.cwramBase)
  else .error

/-! ## Registers -/

/-- The value a read of a register returns; no read has a side effect (10_state.md R32 to R46,
20_memory.md R89). -/
def State.readRegister (s : State) : Register → Word
  | .id => Config.idValue
  | .ctrl => s.ctrlWord
  | .status => s.statusWord
  | .cmd => s.cmdlast
  | .arg0 => s.arg0
  | .arg1 => s.arg1
  | .arg2 => s.arg2
  | .result => s.result
  | .fcmd => s.fcmd
  | .cwsize => BitVec.ofNat 32 Config.cwramBytes

/-- A write of CTRL (10_state.md R35). -/
def State.writeCtrl (s : State) (w : Word) : State :=
  if w.getLsbD 0 then s.softReset else { s with irqen := w.getLsbD 1 }

/-- The write rule of a register; a write of a read-only register is ignored (10_state.md R35, R37,
R42, R43, R48). -/
def State.writeRegister (s : State) (r : Register) (w : Word) : State :=
  match r with
  | .ctrl => s.writeCtrl w
  | .status => s.writeStatus w
  | .cmd => s.writeCmd w
  | .arg0 => { s with arg0 := w }
  | .arg1 => { s with arg1 := w }
  | .arg2 => { s with arg2 := w }
  | .id | .result | .fcmd | .cwsize => s

/-! ## Byte order (20_memory.md R85) -/

/-- The value of bytes, the first in bits [7:0]. -/
def littleEndian : List Byte → Nat
  | [] => 0
  | b :: rest => b.toNat + 256 * littleEndian rest

/-- The `n` low bytes of a value, bits [7:0] first. -/
def bytesOf (n : Nat) (w : Word) : List Byte :=
  (List.range n).map fun t => w.extractLsb' (8 * t) 8

/-! ## Transactions -/

/-- The state after a transaction whose response is `r`. -/
def State.respond (s : State) (r : BusResponse) : State := { s with response := some r }

/-- resp = OKAY with `rdata`. -/
def okayRead (w : Word) : BusResponse := ⟨.okay, some w⟩

/-- resp = OKAY of a write. -/
def okayWrite : BusResponse := ⟨.okay, none⟩

/-- resp = ERROR of a read, rdata = 0 (20_memory.md R82 to R84). -/
def errorRead : BusResponse := ⟨.error, some 0⟩

/-- resp = ERROR of a write. -/
def errorWrite : BusResponse := ⟨.error, none⟩

/-- A read transaction (20_memory.md R82 to R84). A window read of an undefined cell stops the model
(93_implementation_defined.md I3). -/
def busRead (s : State) (off : BitVec 14) (n : AccessSize) : Answer :=
  match s.target off n with
  | .register r => .next (s.respond (okayRead (s.readRegister r)))
  | .cells a =>
    readThen s ⟨a, n.bytes⟩ fun bytes =>
      .next (s.respond (okayRead (BitVec.ofNat 32 (littleEndian bytes))))
  | .error => .next (s.respond errorRead)

/-- A write transaction (20_memory.md R82 to R84). -/
def busWrite (s : State) (off : BitVec 14) (n : AccessSize) (w : Word) : Answer :=
  match s.target off n with
  | .register r => .next ((s.writeRegister r w).respond okayWrite)
  | .cells a =>
    .next ({ s with cwram := s.cwram.writeBytes a (bytesOf n.bytes w) }.respond okayWrite)
  | .error => .next (s.respond errorWrite)

/-- The host's move (20_memory.md R91). A transaction while `rst_n` = 0 has no defined response
(70_reset_and_hazards.md R300; log entry 9). -/
def hostMove (s : State) (t : Transaction) : Answer :=
  if s.rstN then
    match t with
    | .read off n => busRead s off n
    | .write off n w => busWrite s off n w
  else .fault .transactionInReset

/-- The system address of an aperture offset (20_memory.md R80; log entry 18). -/
def systemAddress (off : BitVec 14) : Nat := Config.blockBase + off.toNat

end Sys2Proof.Machine
end

