-- ==== Sys2Proof/Machine/Turn.lean ====
section
/-!
DEFINITION. Which agent moves next and what it does (20_memory.md R91, 70_reset_and_hazards.md R310).
-/

namespace Sys2Proof.Machine

/-- A step is either the end of a decoded command in a state, or already answered. -/
inductive Move where
  | run (i : Instr) (s : State)
  | answer (o : Host.Outcome State Fault Refusal)

/-- The engine's move: a Busy engine decodes its latched word and ends the command, by a fault when
the word is illegal (30_encoding.md R118). An Idle or Faulted engine, or a block held in reset, does
nothing (70_reset_and_hazards.md R300, 60_exceptions.md R285). -/
def engineMove (s : State) : Move :=
  if s.rstN ∧ s.eng = .busy then
    match decode s.lcmd with
    | .ok i => .run i s
    | .error c => .answer (.next (s.raiseFault c))
  else .answer (.next s)

/-- The next move of the block: the first of `turns`; with no turn left the engine moves
(70_reset_and_hazards.md R310: a Busy engine ends its command; log entry 1). -/
def nextMove (s : State) : Move :=
  match s.turns with
  | [] => engineMove s
  | .engine :: rest => engineMove { s with turns := rest }
  | .host t :: rest => .answer (hostMove { s with turns := rest } t)
  | .rst level :: rest => .answer (.next ({ s with turns := rest }.setRst level))

end Sys2Proof.Machine
end

