-- ==== Sys2Proof/Machine/Step.lean ====
section
/-!
DEFINITION. One step of the block (20_memory.md R91), and the state in which the next step runs a
given command word.
-/

namespace Sys2Proof.Machine

/-- One step: the next turn (Sys2Proof/Machine/Turn.lean), with the commands of `exec`. -/
def step (s : State) : Host.Outcome State Fault Refusal :=
  match nextMove s with
  | .run i s' => exec i s'
  | .answer o => o

/-- `s` with the command word accepted as R42 says and an engine turn put first, so that the very
next step ends the command (log entry 2). -/
def State.withFetchWord (s : State) (nbits w : Nat) : State :=
  { s.acceptCommand (BitVec.ofNat 32 (w % 2 ^ nbits)) with rstN := true, turns := .engine :: s.turns }

end Sys2Proof.Machine
end

