-- ==== Sys2Proof/Machine/HostProgram.lean ====
section
/-!
DEFINITION. The host's side of a program as lists of turns: the statements of 30_encoding.md R121 and
the pseudo-instructions of R122. A program is placed in `State.turns`.
-/

namespace Sys2Proof.Machine

/-- `wr REG, imm32`. -/
def hostWr (r : Register) (imm : Word) : List Turn := [.host (.write r.offset .word imm)]

/-- `rd REG`. -/
def hostRd (r : Register) : List Turn := [.host (.read r.offset .word)]

/-- The aperture offset of CWRAM address `a` (30_encoding.md R121). DESIGN CHOICE: R80 has no offset
for `a` above 8191 and R121 gives no behaviour; the model keeps the low 14 bits (log entry 22). -/
def windowOffset (a : Nat) : BitVec 14 := BitVec.ofNat 14 (Config.cwramBase + a)

/-- `sb a, b0, b1, …`: one byte write for each byte. -/
def hostSb (a : Nat) : List Byte → List Turn
  | [] => []
  | b :: rest => .host (.write (windowOffset a) .byte (b.setWidth 32)) :: hostSb (a + 1) rest

/-- `lb a, n`: n byte reads. -/
def hostLb (a n : Nat) : List Turn :=
  (List.range n).map fun t => .host (.read (windowOffset (a + t)) .byte)

/-- `cmd <command>`. -/
def hostCmd (i : Instr) : List Turn := hostWr .cmd (encode i)

/-- `wait`: `polls` reads of STATUS while the command runs, its end, and the read that sees BUSY = 0.
The number of polls is unspecified (70_reset_and_hazards.md R310). -/
def hostWait (polls : Nat) : List Turn :=
  (List.replicate polls (hostRd .status)).flatten ++ [.engine] ++ hostRd .status

/-- `(len << 16) | addr`, an operand register's value (30_encoding.md R122). DESIGN CHOICE: R122 states
no operand domain; an `addr` of 2^16 or more is or-ed into the length, and bits above 31 are dropped
(log entry 23). -/
def rangeWord (addr len : Nat) : Word := BitVec.ofNat 32 (len <<< 16 ||| addr)

/-- The value `wr ARG2` writes for a destination address (30_encoding.md R122). DESIGN CHOICE: bits
above 31 are dropped (log entry 23). -/
def addressWord (addr : Nat) : Word := BitVec.ofNat 32 addr

/-- `divide maddr, mlen, gaddr, glen, daddr`. -/
def hostDivide (polls maddr mlen gaddr glen daddr : Nat) : List Turn :=
  hostWr .arg0 (rangeWord maddr mlen) ++ hostWr .arg1 (rangeWord gaddr glen)
    ++ hostWr .arg2 (addressWord daddr) ++ hostCmd .divide ++ hostWait polls

/-- `rsenc v, ecl, maddr, mlen, daddr`. -/
def hostRsenc (polls : Nat) (v : BitVec 6) (e : Ecl) (maddr mlen daddr : Nat) : List Turn :=
  hostWr .arg0 (rangeWord maddr mlen) ++ hostWr .arg2 (addressWord daddr)
    ++ hostCmd (.rsenc v e) ++ hostWait polls

/-- `struct v, ecl, saddr, dlen, oaddr`. -/
def hostStruct (polls : Nat) (v : BitVec 6) (e : Ecl) (saddr dlen oaddr : Nat) : List Turn :=
  hostWr .arg0 (rangeWord saddr dlen) ++ hostWr .arg2 (addressWord oaddr)
    ++ hostCmd (.struct v e) ++ hostWait polls

/-- `query <command>`. -/
def hostQuery (polls : Nat) (i : Instr) : List Turn :=
  hostCmd i ++ hostWait polls ++ hostRd .result

/-- `query1 <command>, x`. -/
def hostQuery1 (polls : Nat) (i : Instr) (x : Word) : List Turn :=
  hostWr .arg0 x ++ hostCmd i ++ hostWait polls ++ hostRd .result

/-- `clrdone`. -/
def hostClrdone : List Turn := hostWr .status 0x00000002

/-- `srst`. -/
def hostSrst : List Turn := hostWr .ctrl 0x00000001

/-- A host transaction in the clock in which a command ends: the host's step comes first, so that the
command's DONE wins over a clear and a CMD write is not accepted (60_exceptions.md R278;
log entry 10). -/
def sameClock (t : Transaction) : List Turn := [.host t, .engine]

end Sys2Proof.Machine
end

