-- ==== Sys2Proof/Safety.lean ====
section
/-!
DEFINITION. What claims are stated in terms of: the invariant of the block (10_state.md R38), the end
of a run (70_reset_and_hazards.md R312), the state a command leaves, and the polynomials of
40_gf_engine.md R150 and 41_tables.md R184.
-/

namespace Sys2Proof.Machine

/-- The flag invariants of 10_state.md R38 with BUSY and FAULT as views of ENG, the causes
60_exceptions.md R270 can produce, the command words that agree (10_state.md R41, R42), and CWRAM's
canonical form. -/
structure State.Inv (s : State) : Prop where
  /-- BUSY = 1 implies DONE = 0. -/
  busy_done : s.eng = .busy → s.done = false
  /-- BUSY = 1: CMD reads the running command's word. -/
  busy_cmdlast : s.eng = .busy → s.cmdlast = s.lcmd
  /-- FAULT = 0 implies FCAUSE = 0x00 and FCMD = 0. -/
  noFault : s.eng ≠ .faulted → s.fcause = 0 ∧ s.fcmd = 0
  /-- FAULT = 1: FCAUSE is one of 0x01 to 0x0D and FCMD is the last accepted word. -/
  faulted : s.eng = .faulted → 1 ≤ s.fcause.toNat ∧ s.fcause.toNat ≤ 13 ∧ s.fcmd = s.cmdlast
  /-- No command runs while `rst_n` = 0. -/
  inReset : s.rstN = false → s.eng = .idle
  /-- CWRAM is in canonical form. -/
  cwram : s.cwram.wf

/-- The run is over: the host has performed its last statement and ENG is not Busy
(70_reset_and_hazards.md R312). -/
def State.RunOver (s : State) : Prop := s.turns = [] ∧ s.eng ≠ .busy

/-- A faulted run (70_reset_and_hazards.md R312). -/
def State.FaultedRun (s : State) : Prop := s.RunOver ∧ s.eng = .faulted

/-- A run that ended without fault: what a host may rely on (70_reset_and_hazards.md R305). -/
def State.CleanRun (s : State) : Prop := s.RunOver ∧ s.eng = .idle

/-! ## The state a command leaves -/

/-- `s` after a command that only wrote RESULT = `r` (10_state.md R36, R44). -/
def State.resultIs (s : State) (r : Nat) : State :=
  { s with result := BitVec.ofNat 32 r, done := true, eng := .idle }

/-- `s` after a command that wrote `bytes` from cell `base` and RESULT = `r` (20_memory.md R90). -/
def State.wroteAt (s : State) (base : Nat) (bytes : List Byte) (r : Nat) : State :=
  { s.resultIs r with cwram := s.cwram.writeBytes base bytes }

/-- `s` after the fault procedure with an FCAUSE code (60_exceptions.md R272). -/
def State.faultEntry (s : State) (code : BitVec 8) : State :=
  { s with fcause := code, fcmd := s.lcmd, done := true, eng := .faulted }

/-- The cells a command may write: the destination of its ranges, nothing when it faults
(70_reset_and_hazards.md R303, R313). -/
def commandDest (i : Instr) (s : State) : Range :=
  match commandRanges i s with
  | .ok r => r.dest
  | .error _ => Range.empty

/-- Two ranges of cells share no cell (20_memory.md R88). -/
def Apart (a la b lb : Nat) : Prop := la = 0 ∨ lb = 0 ∨ a + la ≤ b ∨ b + lb ≤ a

/-- Block `b` starts at this data codeword (42_structurer.md R212). -/
def blockStart (row : EccRow) (b : Nat) : Nat :=
  if b < row.c1 then b * row.s1 else row.c1 * row.s1 + (b - row.c1) * row.s2

/-- A turn that resets the block: `rst_n` low, or a write of CTRL with SRST = 1
(70_reset_and_hazards.md R300, R302). -/
def Turn.isReset : Turn → Bool
  | .rst level => !level
  | .host (.write off n w) => off == 0x04 && n == .word && w.getLsbD 0
  | .host (.read _ _) => false
  | .engine => false

/-! ## Polynomials over GF(256), coefficients of the highest degree first -/

/-- The sum of two polynomials of equal length (00_scope.md R10). -/
def polyAdd (p q : List Byte) : List Byte := List.zipWith (· ^^^ ·) p q

/-- The product of `q` with a polynomial `p` that has a coefficient (00_scope.md R11). -/
def polyMul (q p : List Byte) : List Byte :=
  match q with
  | [] => List.replicate (p.length - 1) 0
  | c :: rest => polyAdd (p.map (gfMul c) ++ List.replicate rest.length 0) (0 :: polyMul rest p)

/-- The value of a polynomial at `x` (41_tables.md R184). -/
def polyEval (p : List Byte) (x : Byte) : Byte := p.foldl (fun acc c => gfMul acc x ^^^ c) 0

/-- The polynomial whose coefficients have the given exponents (00_scope.md R16). -/
def polyOfExponents (g : List Byte) : List Byte := g.map fun e => expRom e.toNat

/-! ## Format words -/

/-- The 2-bit ECL indicator of a format word (41_tables.md R186). -/
def formatIndicator : Ecl → Nat
  | .L => 1
  | .M => 0
  | .Q => 3
  | .H => 2

/-- The remainder of `data * x^10` divided by 0x537 over GF(2), for 5 data bits (41_tables.md R186). -/
def bchRemainder (data : Nat) : Nat :=
  [4, 3, 2, 1, 0].foldl (fun v i => if v.testBit (i + 10) then v ^^^ (0x537 <<< i) else v)
    (data <<< 10)

/-- The number of bit positions among the low 15 in which two words differ (41_tables.md R188). -/
def formatDistance (x y : Nat) : Nat := ((List.range 15).filter fun i => (x ^^^ y).testBit i).length

end Sys2Proof.Machine
end

