-- ==== Sys2Proof/Certificates/Slice0/Obligations.lean ====
section
/-!
DEFINITION. The statements for the provers. Each is about the block in every state; none is about a
program. `s.resultIs r`, `s.wroteAt base bytes r` and `s.faultEntry code` (Sys2Proof/Safety.lean) are
whole next states, so a statement that ends in one of them is also the command's frame.
-/

open Sys2Proof Sys2Proof.Machine

/-! ## Encoding -/

/-- Decoding an encoded command gives it back, for every command and every value of every field
(30_encoding.md R113, R118, R120). -/
def Obligations.DecodeEncodeRoundTrip : Prop :=
  ∀ i : Instr, decode (encode i) = .ok i

/-- A word that decodes is the encoding of the command it decodes to: each word has one meaning
(30_encoding.md R110, R119). -/
def Obligations.EncodeDecodeRoundTrip : Prop :=
  ∀ (w : Word) (i : Instr), decode w = .ok i → encode i = w

/-- The thirteen words of 30_encoding.md R123. -/
def Obligations.EncodingExamples : Prop :=
  (encode .exp = 0x00000001 ∧ decode 0x00000001 = .ok .exp) ∧
  (encode .divide = 0x00000010 ∧ decode 0x00000010 = .ok .divide) ∧
  (encode (.rsenc 1 .M) = 0x00004111 ∧ decode 0x00004111 = .ok (.rsenc 1 .M)) ∧
  (encode (.struct 1 .M) = 0x00004112 ∧ decode 0x00004112 = .ok (.struct 1 .M)) ∧
  (encode (.struct 5 .Q) = 0x00008512 ∧ decode 0x00008512 = .ok (.struct 5 .Q)) ∧
  (encode (.dcw 40 .H) = 0x0000E820 ∧ decode 0x0000E820 = .ok (.dcw 40 .H)) ∧
  (encode (.ccib 10 1) = 0x00080A22 ∧ decode 0x00080A22 = .ok (.ccib 10 1)) ∧
  (encode (.groups 5 .Q) = 0x00008523 ∧ decode 0x00008523 = .ok (.groups 5 .Q)) ∧
  (encode (.getpoly 1 .L) = 0x00000125 ∧ decode 0x00000125 = .ok (.getpoly 1 .L)) ∧
  (encode (.fmtinfo .L 0) = 0x00000026 ∧ decode 0x00000026 = .ok (.fmtinfo .L 0)) ∧
  (encode (.fmtinfo .M 5) = 0x00054026 ∧ decode 0x00054026 = .ok (.fmtinfo .M 5)) ∧
  (encode .pscore = 0x00000030 ∧ decode 0x00000030 = .ok .pscore) ∧
  (encode (.trail 7) = 0x07000031 ∧ decode 0x07000031 = .ok (.trail 7))

/-- An accepted word whose OP is not in the opcode map faults ILLEGAL_OPCODE, the zero word among
them (30_encoding.md R116). The engine moves on its turn, and when no turn is left: that it then ends
the command is the model's choice (log entry 1). -/
def Obligations.IllegalOpcodeFaults : Prop :=
  (∀ (s : State) (rest : List Turn), s.rstN = true → s.eng = .busy →
    (s.turns = .engine :: rest ∨ (s.turns = [] ∧ rest = [])) →
    s.lcmd.toNat % 256 ∉ [0x01, 0x02, 0x10, 0x11, 0x12, 0x20, 0x21, 0x22, 0x23, 0x24, 0x25, 0x26,
      0x30, 0x31] →
    step s = .next ({ s with turns := rest }.faultEntry 0x01)) ∧
  (decode 0 = .error .illegalOpcode)

/-- A word with a legal OP and a 1 in a bit outside OP and the row's fields faults RESERVED_BITS; the
bits each opcode leaves to its fields are written out (30_encoding.md R113, R117). The engine moves on
its turn, and when no turn is left: that it then ends the command is the model's choice (log
entry 1). -/
def Obligations.ReservedBitsFault : Prop :=
  ∀ (s : State) (rest : List Turn) (op free : Nat), s.rstN = true → s.eng = .busy →
    (s.turns = .engine :: rest ∨ (s.turns = [] ∧ rest = [])) → s.lcmd.toNat % 256 = op →
    (op, free) ∈ [(0x01, 0), (0x02, 0), (0x10, 0), (0x11, 0xFF00), (0x12, 0xFF00), (0x20, 0xFF00),
      (0x21, 0xFF00), (0x22, 0x183F00), (0x23, 0xFF00), (0x24, 0xFF00), (0x25, 0xFF00),
      (0x26, 0x7C000), (0x30, 0), (0x31, 0xF000000)] →
    (∃ b, 8 ≤ b ∧ b < 32 ∧ s.lcmd.getLsbD b = true ∧ free.testBit b = false) →
    step s = .next ({ s with turns := rest }.faultEntry 0x02)

/-! ## The step -/

/-- A Busy engine whose latched word decodes to `i` runs `exec i` when it has its turn, and when no
turn is left; the step adds only the taking of the turn (20_memory.md R90, R91, 30_encoding.md R118;
the list of turns is the model's choice, log entry 1). -/
def Obligations.StepRunsDecodedCommand : Prop :=
  ∀ (s : State) (i : Instr), s.rstN = true → s.eng = .busy → decode s.lcmd = .ok i →
    (∀ rest, s.turns = .engine :: rest → step s = exec i { s with turns := rest }) ∧
    (s.turns = [] → step s = exec i s)

/-- A turn that runs no command: a host transaction, a level of `rst_n`, and the engine when it is not
Busy, which does nothing (20_memory.md R91, 60_exceptions.md R285; log entry 1). -/
def Obligations.StepPerformsNextTurn : Prop :=
  (∀ (s : State) (t : Transaction) (rest : List Turn), s.turns = .host t :: rest →
    step s = hostMove { s with turns := rest } t) ∧
  (∀ (s : State) (level : Bool) (rest : List Turn), s.turns = .rst level :: rest →
    step s = .next ({ s with turns := rest }.setRst level)) ∧
  (∀ (s : State) (rest : List Turn), s.turns = .engine :: rest → s.eng ≠ .busy →
    step s = .next { s with turns := rest }) ∧
  (∀ s : State, s.turns = [] → s.eng ≠ .busy → step s = .next s)

/-- The life of a command from Idle: the CMD write is accepted and latches the word and the operands,
and the engine's turn then runs the command on them (10_state.md R42, R51, 30_encoding.md R118). -/
def Obligations.CommandLifecycle : Prop :=
  ∀ (i : Instr) (s : State) (rest : List Turn), s.rstN = true → s.eng = .idle →
    s.turns = hostCmd i ++ .engine :: rest →
    ∃ s₁, step s = .next s₁ ∧ s₁.eng = .busy ∧ s₁.done = false ∧ s₁.cmdlast = encode i ∧
      s₁.lcmd = encode i ∧ s₁.larg0 = s.arg0 ∧ s₁.larg1 = s.arg1 ∧ s₁.larg2 = s.arg2 ∧
      s₁.result = s.result ∧ s₁.cwram = s.cwram ∧ step s₁ = exec i { s₁ with turns := rest }

/-! ## The whole machine -/

/-- What reset leaves, as far as the spec gives it: the engine Idle, every register at its reset value
as the host reads it, `irq` 0, and no CWRAM cell defined (10_state.md R55, 70_reset_and_hazards.md
R300). -/
def Obligations.ResetValues : Prop :=
  State.reset.eng = .idle ∧ State.reset.irq = false ∧ State.reset.rstN = true ∧
  (∀ r, r ≠ .id → r ≠ .cwsize → State.reset.readRegister r = 0) ∧
  State.reset.readRegister .id = 0x51524331 ∧ State.reset.readRegister .cwsize = 0x00002000 ∧
  (∀ a, State.reset.cwram.read a = none)

/-- The reset state meets the invariant. -/
def Obligations.ResetMeetsInvariant : Prop := State.reset.Inv

/-- Every step keeps the invariant, from every state that meets it: the flag invariants of
10_state.md R38, the causes that can be produced, and CWRAM's canonical form. -/
def Obligations.StepKeepsInvariant : Prop :=
  ∀ s t : State, s.Inv → step s = .next t → t.Inv

/-- The transitions of ENG: a CMD write moves Idle to Busy, the end of a command Busy to Idle or Faulted
with DONE = 1, and a reset any state to Idle; no step makes another, and in particular only a reset
leaves Faulted (10_state.md R52). -/
def Obligations.EngineTransitions : Prop :=
  (∀ (s : State) (w : Word), s.eng = .idle → (s.writeRegister .cmd w).eng = .busy) ∧
  (∀ (i : Instr) (s t : State), exec i s = .next t →
    t.done = true ∧ (t.eng = .idle ∨ (t.eng = .faulted ∧ t.fault = true))) ∧
  (∀ (s : State) (c : Cause), (s.raiseFault c).eng = .faulted ∧ (s.raiseFault c).done = true ∧
    (s.raiseFault c).fault = true) ∧
  (∀ s : State, s.softReset.eng = .idle ∧ (s.setRst false).eng = .idle) ∧
  ∀ s t : State, step s = .next t →
    (s.eng = .idle → t.eng = .idle ∨
      (t.eng = .busy ∧ ∃ w, s.turns.head? = some (.host (.write 0x0C .word w)))) ∧
    (s.eng = .busy → t.eng = .busy ∨
      ((t.eng = .idle ∨ t.eng = .faulted) ∧ t.done = true ∧
        (s.turns.head? = none ∨ s.turns.head? = some .engine)) ∨
      (t.eng = .idle ∧ ∃ r, s.turns.head? = some r ∧ r.isReset = true)) ∧
    (s.eng = .faulted → t.eng = .faulted ∨
      (t.eng = .idle ∧ ∃ r, s.turns.head? = some r ∧ r.isReset = true))

/-- From a state that meets the invariant, one step for each turn and one more end the run, unless a
step stops: a Busy engine with no turn left ends its command. That an engine left alone takes its
completion step is the weak fairness of 70_reset_and_hazards.md R310 as log entry 1 models it. -/
def Obligations.EveryRunEnds : Prop :=
  ∀ s t : State, s.Inv →
    (Host.Core.run Sys2Proof.core (s.turns.length + 1) s : Host.Outcome State Fault Refusal) = .next t →
    t.RunOver

/-- A faulted command performs exactly the fault procedure, with the code of a cause and the faulted
word, and nothing else (60_exceptions.md R272). -/
def Obligations.FaultEntryIsPrecise : Prop :=
  (∀ (s : State) (c : Cause), s.raiseFault c = { s with
      fcause := causeCode c, fcmd := s.lcmd, done := true, eng := .faulted }) ∧
  (∀ (i : Instr) (s t : State), exec i s = .next t → t.eng = .faulted →
    ∃ code : BitVec 8, 1 ≤ code.toNat ∧ code.toNat ≤ 13 ∧ t = s.faultEntry code)

/-- The frame of every command: the operand registers, CTRL, OVR, the command latch and CMD are
unchanged; a completed command leaves the fault record, a faulted one RESULT and CWRAM; and every
cell outside the command's destination reads as before (10_state.md R40, R43, R44,
70_reset_and_hazards.md R313). -/
def Obligations.CommandFrame : Prop :=
  ∀ (i : Instr) (s t : State), exec i s = .next t →
    (t.arg0 = s.arg0 ∧ t.arg1 = s.arg1 ∧ t.arg2 = s.arg2 ∧ t.irqen = s.irqen ∧ t.ovr = s.ovr ∧
      t.cmdlast = s.cmdlast ∧ t.lcmd = s.lcmd ∧ t.larg0 = s.larg0 ∧ t.larg1 = s.larg1 ∧
      t.larg2 = s.larg2 ∧ t.rstN = s.rstN ∧ t.response = s.response ∧ t.turns = s.turns) ∧
    t.done = true ∧
    ((t.eng = .idle ∧ t.fcause = s.fcause ∧ t.fcmd = s.fcmd) ∨
      (t.eng = .faulted ∧ t.result = s.result ∧ t.cwram = s.cwram)) ∧
    (∀ a, (commandDest i s).contains a = false → t.cwram.read a = s.cwram.read a)

/-- While a command runs, no host transaction but a soft reset changes a CWRAM cell
(20_memory.md R92, 70_reset_and_hazards.md R306). -/
def Obligations.HostCannotTouchBusyCwram : Prop :=
  ∀ (s t : State) (tr : Transaction), s.eng = .busy → s.turns.head? = some (.host tr) →
    (Turn.host tr).isReset = false → step s = .next t → t.cwram = s.cwram

/-- RESULT changes only at the successful completion of a command, or by a reset (10_state.md R44,
R55). -/
def Obligations.ResultWrittenOnlyByCompletion : Prop :=
  ∀ s t : State, step s = .next t → t.result ≠ s.result →
    (s.eng = .busy ∧ t.eng = .idle ∧ t.done = true ∧
      (s.turns.head? = none ∨ s.turns.head? = some .engine)) ∨
    (t.result = 0 ∧ ∃ r, s.turns.head? = some r ∧ r.isReset = true)

/-- A command's outcome depends only on its latched operands and the bytes of its source ranges: two
states that agree on those end the command alike, with the same RESULT and the same bytes written, or
the same fault (40_gf_engine.md R153, 43_mask_penalty.md R247, 20_memory.md R90). -/
def Obligations.CommandsDependOnlyOnOperands : Prop :=
  ∀ (i : Instr) (s₁ s₂ t₁ : State), s₁.larg0 = s₂.larg0 → s₁.larg1 = s₂.larg1 → s₁.larg2 = s₂.larg2 →
    (∀ r, commandRanges i s₁ = .ok r → ∀ a, (r.source.contains a || r.generator.contains a) = true →
      s₁.cwram.read a = s₂.cwram.read a) →
    exec i s₁ = .next t₁ →
    ∃ t₂, exec i s₂ = .next t₂ ∧ t₂.eng = t₁.eng ∧
      (t₁.eng = .idle → t₂.result = t₁.result ∧
        ∀ a, (commandDest i s₁).contains a = true → t₂.cwram.read a = t₁.cwram.read a) ∧
      (t₁.eng = .faulted → t₂.fcause = t₁.fcause)

/-! ## Reset -/

/-- A write of CTRL with SRST = 1, in any engine state: every register back to its reset value, OKAY,
and CWRAM unchanged when no command runs (70_reset_and_hazards.md R302). -/
def Obligations.SoftResetEffect : Prop :=
  ∀ (s : State) (w : Word), s.rstN = true → w.getLsbD 0 = true →
    ∃ m, hostMove s (.write 0x04 .word w) = .next { s with
        eng := .idle, irqen := false, done := false, ovr := false, fcause := 0, cmdlast := 0,
        arg0 := 0, arg1 := 0, arg2 := 0, result := 0, fcmd := 0, cwram := m,
        response := some ⟨.okay, none⟩ } ∧
      (s.eng ≠ .busy → m = s.cwram)

/-- A pulse of `rst_n`: afterwards every register has its reset value and the block is out of reset;
CWRAM is unchanged when no command was running (70_reset_and_hazards.md R300). While `rst_n` = 0 the
engine does nothing, and a host transaction stops the model (the model's choice, log entry 9). -/
def Obligations.HardwareReset : Prop :=
  (∀ s : State, ∃ m, (s.setRst false).setRst true = { s with
      eng := .idle, irqen := false, done := false, ovr := false, fcause := 0, cmdlast := 0,
      arg0 := 0, arg1 := 0, arg2 := 0, result := 0, fcmd := 0, cwram := m, rstN := true } ∧
    (s.eng ≠ .busy → m = s.cwram)) ∧
  (∀ s : State, (s.setRst false).rstN = false ∧ (s.setRst false).irq = false) ∧
  (∀ (s : State) (rest : List Turn), s.rstN = false → s.turns = .engine :: rest →
    step s = .next { s with turns := rest }) ∧
  (∀ (s : State) (t : Transaction), s.rstN = false → hostMove s t = .fault .transactionInReset)

/-- A command abandoned by either reset: exactly the cells of its destination become undefined, and
the destination is that of the command's rule, empty when the command would have faulted
(70_reset_and_hazards.md R303). -/
def Obligations.AbandonedCells : Prop :=
  (∀ (s : State) (i : Instr), s.eng = .busy → decode s.lcmd = .ok i → ∀ a,
    s.softReset.cwram.read a = (if (commandDest i s).contains a then none else s.cwram.read a) ∧
    (s.setRst false).cwram.read a =
      (if (commandDest i s).contains a then none else s.cwram.read a)) ∧
  (∀ (s : State) (c : Cause), s.eng = .busy → decode s.lcmd = .error c →
    s.softReset.cwram = s.cwram ∧ (s.setRst false).cwram = s.cwram) ∧
  (∀ s : State, s.softReset.done = false ∧ s.softReset.fcause = 0 ∧ s.softReset.result = 0 ∧
    s.softReset.eng = .idle ∧ (s.setRst false).done = false ∧ (s.setRst false).fcause = 0 ∧
    (s.setRst false).result = 0 ∧ (s.setRst false).eng = .idle) ∧
  (∀ (s : State) (r : Ranges), commandRanges .divide s = .ok r →
    r.dest = ⟨lowHalf s.larg2, highHalf s.larg1 - 1⟩) ∧
  (∀ (s : State) (ver : BitVec 6) (ecl : Ecl) (r : Ranges), commandRanges (.rsenc ver ecl) s = .ok r →
    r.dest = ⟨lowHalf s.larg2, (eccRow ver.toNat ecl).ect⟩) ∧
  (∀ (s : State) (ver : BitVec 6) (ecl : Ecl) (r : Ranges), commandRanges (.struct ver ecl) s = .ok r →
    r.dest = ⟨lowHalf s.larg2, (eccRow ver.toNat ecl).dcw +
      (eccRow ver.toNat ecl).ect * ((eccRow ver.toNat ecl).c1 + (eccRow ver.toNat ecl).c2)⟩) ∧
  (∀ (s : State) (ver : BitVec 6) (ecl : Ecl) (r : Ranges), commandRanges (.getpoly ver ecl) s = .ok r →
    r.dest = ⟨lowHalf s.larg2, (eccRow ver.toNat ecl).ect + 1⟩) ∧
  (∀ (s : State) (i : Instr) (c : Cause), commandRanges i s = .error c → (commandDest i s).len = 0) ∧
  (∀ (s : State) (i : Instr), i ∉ [.divide] → (∀ v e, i ≠ .rsenc v e ∧ i ≠ .struct v e ∧
    i ≠ .getpoly v e) → (commandDest i s).len = 0)

/-! ## The host bus -/

/-- A register read returns the register, OKAY, and changes nothing: the values of the register map,
with STATUS and CTRL from their fields and every reserved bit 0 (10_state.md R32 to R46). -/
def Obligations.RegisterReads : Prop :=
  ∀ (s : State) (off : BitVec 14) (v : Word), s.rstN = true →
    (off, v) ∈ [(0x00, 0x51524331), (0x04, BitVec.ofNat 32 (if s.irqen then 2 else 0)),
      (0x08, BitVec.ofNat 32 (s.fcause.toNat * 256 + (if s.ovr then 8 else 0) +
        (if s.eng = .faulted then 4 else 0) + (if s.done then 2 else 0) +
        (if s.eng = .busy then 1 else 0))),
      (0x0C, s.cmdlast), (0x10, s.arg0), (0x14, s.arg1), (0x18, s.arg2), (0x1C, s.result),
      (0x20, s.fcmd), (0x24, 0x00002000)] →
    hostMove s (.read off .word) = .next { s with response := some ⟨.okay, some v⟩ }

/-- A write of CTRL: the soft reset when bit 0 is 1, else IRQEN is bit 1 and nothing else changes
(10_state.md R35). -/
def Obligations.CtrlWrite : Prop :=
  ∀ (s : State) (w : Word), s.rstN = true →
    hostMove s (.write 0x04 .word w) = .next { (if w.getLsbD 0 then s.softReset
      else { s with irqen := w.getLsbD 1 }) with response := some ⟨.okay, none⟩ }

/-- A write of STATUS clears DONE on bit 1 and OVR on bit 3 and changes nothing else
(10_state.md R37). -/
def Obligations.StatusWrite : Prop :=
  ∀ (s : State) (w : Word), s.rstN = true →
    hostMove s (.write 0x08 .word w) = .next { s with
      done := if w.getLsbD 1 then false else s.done,
      ovr := if w.getLsbD 3 then false else s.ovr,
      response := some ⟨.okay, none⟩ }

/-- A write of CMD: accepted from Idle, with the word and the operands latched and DONE cleared; else
OVR is set and nothing else changes. A read of CMD returns the last accepted word and has no side
effect (10_state.md R42). -/
def Obligations.CmdWrite : Prop :=
  (∀ (s : State) (w : Word), s.rstN = true → s.eng = .idle →
    hostMove s (.write 0x0C .word w) = .next { s with
      cmdlast := w, lcmd := w, larg0 := s.arg0, larg1 := s.arg1, larg2 := s.arg2, done := false, eng := .busy,
      response := some ⟨.okay, none⟩ }) ∧
  (∀ (s : State) (w : Word), s.rstN = true → s.eng ≠ .idle →
    hostMove s (.write 0x0C .word w) = .next { s with
      ovr := true, response := some ⟨.okay, none⟩ }) ∧
  (∀ s : State, s.rstN = true →
    hostMove s (.read 0x0C .word) = .next { s with response := some ⟨.okay, some s.cmdlast⟩ })

/-- ARG0 to ARG2 take any value at any time, and a write of a read-only register is ignored with OKAY
(10_state.md R43, R48). -/
def Obligations.ArgAndReadOnlyWrites : Prop :=
  ∀ (s : State) (w : Word), s.rstN = true →
    hostMove s (.write 0x10 .word w) = .next { s with arg0 := w, response := some ⟨.okay, none⟩ } ∧
    hostMove s (.write 0x14 .word w) = .next { s with arg1 := w, response := some ⟨.okay, none⟩ } ∧
    hostMove s (.write 0x18 .word w) = .next { s with arg2 := w, response := some ⟨.okay, none⟩ } ∧
    (∀ off : BitVec 14, off ∈ [0x00, 0x1C, 0x20, 0x24] →
      hostMove s (.write off .word w) = .next { s with response := some ⟨.okay, none⟩ })

/-- Narrow or misaligned register accesses and every access to an unmapped offset: ERROR, rdata 0, no
state change (20_memory.md R82, R84). -/
def Obligations.RejectedAccesses : Prop :=
  ∀ (s : State) (off : BitVec 14) (n : AccessSize) (w : Word), s.rstN = true →
    ((off.toNat < 0x28 ∧ (n ≠ .word ∨ off.toNat % 4 ≠ 0)) ∨ (0x28 ≤ off.toNat ∧ off.toNat < 0x2000)) →
    hostMove s (.read off n) = .next { s with response := some ⟨.error, some 0⟩ } ∧
    hostMove s (.write off n w) = .next { s with response := some ⟨.error, none⟩ }

/-- A read of the CWRAM window: the cells in little-endian order when aligned and not Busy, else ERROR
with rdata 0 (20_memory.md R83, R85). A read of an undefined cell stops the model
(93_implementation_defined.md I3, log entry 3). -/
def Obligations.WindowReads : Prop :=
  ∀ (s : State) (off : BitVec 14) (n : AccessSize), s.rstN = true → 0x2000 ≤ off.toNat →
    ((off.toNat - 0x2000) % n.bytes = 0 → s.eng ≠ .busy →
      (∀ bs, s.cwram.readBytes (off.toNat - 0x2000) n.bytes = .ok bs →
        ∃ v : Word, hostMove s (.read off n) = .next { s with response := some ⟨.okay, some v⟩ } ∧
          v.toNat < 2 ^ (8 * n.bytes) ∧
          ∀ t < n.bytes, s.cwram.read (off.toNat - 0x2000 + t) = some (v.extractLsb' (8 * t) 8)) ∧
      (∀ a, s.cwram.readBytes (off.toNat - 0x2000) n.bytes = .error a →
        s.cwram.read a = none ∧ hostMove s (.read off n) = .fault (.undefinedCell a))) ∧
    ((off.toNat - 0x2000) % n.bytes ≠ 0 ∨ s.eng = .busy →
      hostMove s (.read off n) = .next { s with response := some ⟨.error, some 0⟩ })

/-- A write of the CWRAM window: the bytes of wdata, low bits at the low address, when aligned and not
Busy, and no other cell changes; else ERROR and no cell changes (20_memory.md R83, R85). -/
def Obligations.WindowWrites : Prop :=
  ∀ (s : State) (off : BitVec 14) (n : AccessSize) (w : Word), s.rstN = true → 0x2000 ≤ off.toNat →
    ((off.toNat - 0x2000) % n.bytes = 0 → s.eng ≠ .busy →
      ∃ m : Memory, hostMove s (.write off n w) =
          .next { s with cwram := m, response := some ⟨.okay, none⟩ } ∧
        (∀ t < n.bytes, m.read (off.toNat - 0x2000 + t) = some (w.extractLsb' (8 * t) 8)) ∧
        (∀ a, a < off.toNat - 0x2000 ∨ off.toNat - 0x2000 + n.bytes ≤ a →
          m.read a = s.cwram.read a)) ∧
    ((off.toNat - 0x2000) % n.bytes ≠ 0 ∨ s.eng = .busy →
      hostMove s (.write off n w) = .next { s with response := some ⟨.error, none⟩ })

/-- `irq` is IRQEN and DONE; it rises when a command completes or faults with IRQEN = 1 or IRQEN is
set while DONE = 1, and falls when the host clears DONE or IRQEN, has a command accepted or resets the block
(10_state.md R53). -/
def Obligations.InterruptLine : Prop :=
  (∀ s : State, s.irq = (s.irqen && s.done)) ∧
  (∀ (i : Instr) (s t : State), exec i s = .next t → s.irqen = true → t.irq = true) ∧
  (∀ (s : State) (c : Cause), s.irqen = true → (s.raiseFault c).irq = true) ∧
  (∀ (s : State) (w : Word), s.done = true → w.getLsbD 0 = false → w.getLsbD 1 = true →
    (s.writeRegister .ctrl w).irq = true) ∧
  (∀ (s : State) (w : Word), w.getLsbD 1 = true → (s.writeRegister .status w).irq = false) ∧
  (∀ (s : State) (w : Word), w.getLsbD 1 = false → (s.writeRegister .ctrl w).irq = false) ∧
  (∀ (s : State) (w : Word), s.eng = .idle → (s.writeRegister .cmd w).irq = false) ∧
  (∀ s : State, s.softReset.irq = false ∧ (s.setRst false).irq = false)

/-- A host write in the clock in which a command ends, as log entry 10 orders it: DONE is set whatever
the STATUS write clears, and a CMD write is not accepted and sets OVR (60_exceptions.md R278). -/
def Obligations.SameClockEvents : Prop :=
  ∀ (s s₁ s₂ : State) (off : BitVec 14) (w : Word) (rest : List Turn), s.eng = .busy →
    s.turns = sameClock (.write off .word w) ++ rest → step s = .next s₁ → step s₁ = .next s₂ →
    (off = 0x08 → s₂.done = true ∧ s₂.eng ≠ .busy) ∧
    (off = 0x0C → s₂.ovr = true ∧ s₂.cmdlast = s.cmdlast ∧ s₂.done = true ∧ s₂.eng ≠ .busy)

/-! ## The Galois-field engine -/

/-- EXP: RESULT is the field value of exponent LARG0, or BAD_OPERAND above 255; 255 and 0 give 1, no
exponent gives 0, and 8 gives 29 (40_gf_engine.md R144). -/
def Obligations.ExpReadsField : Prop :=
  (∀ s : State, s.larg0.toNat ≤ 255 →
    exec .exp s = .next (s.resultIs (expRom s.larg0.toNat).toNat)) ∧
  (∀ s : State, 255 < s.larg0.toNat → exec .exp s = .next (s.faultEntry 0x06)) ∧
  decode 0x00000001 = .ok .exp ∧
  expRom 255 = 1 ∧ expRom 0 = 1 ∧ (∀ e ≤ 255, expRom e ≠ 0) ∧ expRom 8 = 29

/-- LOG: RESULT is the exponent of field value LARG0, BAD_OPERAND above 255, LOG_ZERO for 0; 1 gives
0, 2 gives 1, every result is at most 254, and 29 gives 8 (40_gf_engine.md R145). -/
def Obligations.LogReadsExponent : Prop :=
  (∀ s : State, 1 ≤ s.larg0.toNat → s.larg0.toNat ≤ 255 →
    exec .log s = .next (s.resultIs (logRom s.larg0.toNat).toNat)) ∧
  (∀ s : State, 255 < s.larg0.toNat → exec .log s = .next (s.faultEntry 0x06)) ∧
  (∀ s : State, s.larg0.toNat = 0 → exec .log s = .next (s.faultEntry 0x07)) ∧
  decode 0x00000002 = .ok .log ∧
  logRom 1 = 0 ∧ logRom 2 = 1 ∧ (∀ v, 1 ≤ v → v ≤ 255 → (logRom v).toNat ≤ 254) ∧ logRom 29 = 8

/-- The laws of the EXP and LOG ROMs (40_gf_engine.md R142), and that EXP is the powers of 2 modulo
0x11D (00_scope.md R10). -/
def Obligations.ExpLogTableLaws : Prop :=
  (∀ v, 1 ≤ v → v ≤ 255 → expRom (logRom v).toNat = BitVec.ofNat 8 v) ∧
  (∀ e ≤ 254, (logRom (expRom e).toNat).toNat = e) ∧
  (logRom (expRom 255).toNat).toNat = 0 ∧
  (∀ b : Byte, b ≠ 0 → ∃ e ≤ 254, expRom e = b ∧ ∀ e' ≤ 254, expRom e' = b → e' = e) ∧
  (∀ e ≤ 255, expRom e ≠ 0) ∧
  (∀ e ≤ 254, (expRom (e + 1)).toNat = if (expRom e).toNat < 128 then 2 * (expRom e).toNat
    else (2 * (expRom e).toNat) ^^^ 0x11D)

/-- DIVIDE, when its checks pass and its source cells are defined: the k-byte remainder of the message
by the generator is written at DADDR and RESULT is k (40_gf_engine.md R146). -/
def Obligations.DivideWritesRemainder : Prop :=
  ∀ (s : State) (m g : List Byte), highHalf s.larg2 = 0 → 1 ≤ highHalf s.larg1 →
    highHalf s.larg1 ≤ 31 → (1 ≤ highHalf s.larg0 ∨ highHalf s.larg1 = 1) →
    lowHalf s.larg0 + highHalf s.larg0 ≤ 8192 → lowHalf s.larg1 + highHalf s.larg1 ≤ 8192 →
    lowHalf s.larg2 + (highHalf s.larg1 - 1) ≤ 8192 →
    Apart (lowHalf s.larg2) (highHalf s.larg1 - 1) (lowHalf s.larg0) (highHalf s.larg0) →
    Apart (lowHalf s.larg2) (highHalf s.larg1 - 1) (lowHalf s.larg1) (highHalf s.larg1) →
    s.cwram.readBytes (lowHalf s.larg0) (highHalf s.larg0) = .ok m →
    s.cwram.readBytes (lowHalf s.larg1) (highHalf s.larg1) = .ok g →
    exec .divide s = .next (s.wroteAt (lowHalf s.larg2) (div m g) (highHalf s.larg1 - 1))

/-- The faults of DIVIDE, each when the earlier checks pass, in the order of 40_gf_engine.md R146 and
60_exceptions.md R273. -/
def Obligations.DivideFaultOrder : Prop :=
  ∀ s : State,
    (highHalf s.larg2 ≠ 0 → exec .divide s = .next (s.faultEntry 0x06)) ∧
    (highHalf s.larg2 = 0 → highHalf s.larg1 = 0 → exec .divide s = .next (s.faultEntry 0x08)) ∧
    (highHalf s.larg2 = 0 → 31 < highHalf s.larg1 → exec .divide s = .next (s.faultEntry 0x09)) ∧
    (highHalf s.larg2 = 0 → 2 ≤ highHalf s.larg1 → highHalf s.larg1 ≤ 31 → highHalf s.larg0 = 0 →
      exec .divide s = .next (s.faultEntry 0x0A)) ∧
    (highHalf s.larg2 = 0 → 1 ≤ highHalf s.larg1 → highHalf s.larg1 ≤ 31 →
      (1 ≤ highHalf s.larg0 ∨ highHalf s.larg1 = 1) →
      (8192 < lowHalf s.larg0 + highHalf s.larg0 ∨ 8192 < lowHalf s.larg1 + highHalf s.larg1 ∨
        8192 < lowHalf s.larg2 + (highHalf s.larg1 - 1)) →
      exec .divide s = .next (s.faultEntry 0x0C)) ∧
    (highHalf s.larg2 = 0 → 1 ≤ highHalf s.larg1 → highHalf s.larg1 ≤ 31 → 1 ≤ highHalf s.larg0 →
      lowHalf s.larg0 + highHalf s.larg0 ≤ 8192 → lowHalf s.larg1 + highHalf s.larg1 ≤ 8192 →
      lowHalf s.larg2 + (highHalf s.larg1 - 1) ≤ 8192 →
      (¬ Apart (lowHalf s.larg2) (highHalf s.larg1 - 1) (lowHalf s.larg0) (highHalf s.larg0) ∨
        ¬ Apart (lowHalf s.larg2) (highHalf s.larg1 - 1) (lowHalf s.larg1) (highHalf s.larg1)) →
      exec .divide s = .next (s.faultEntry 0x0D))

/-- When the leading coefficient is 1, the bytes DIVIDE writes are the remainder of M(x)·x^k divided by
G(x): some quotient times G, plus the remainder, is the padded message (40_gf_engine.md R150). -/
def Obligations.DivideIsPolynomialRemainder : Prop :=
  ∀ (m g : List Byte) (lead : Byte), g.head? = some lead → (lead = 0 ∨ lead = 255) →
    (div m g).length = g.length - 1 ∧
    ∃ q : List Byte, q.length = m.length ∧
      polyAdd (polyMul q (polyOfExponents g)) (List.replicate m.length 0 ++ div m g) =
        m ++ List.replicate (g.length - 1) 0

/-- An all-zero message has an all-zero remainder; an empty message with k > 0 faults MSG_EMPTY
(40_gf_engine.md R151). -/
def Obligations.DivideZeroMessage : Prop :=
  (∀ (n : Nat) (g : List Byte), div (List.replicate n 0) g = List.replicate (g.length - 1) 0) ∧
  (∀ s : State, highHalf s.larg2 = 0 → 2 ≤ highHalf s.larg1 → highHalf s.larg1 ≤ 31 →
    highHalf s.larg0 = 0 → exec .divide s = .next (s.faultEntry 0x0A))

/-- The remainder is linear in the message, for messages of equal length (40_gf_engine.md R152). -/
def Obligations.DivideLinear : Prop :=
  ∀ m m' g : List Byte, m.length = m'.length →
    div (polyAdd m m') g = polyAdd (div m g) (div m' g)

/-- Slot k of the generator catalog: k + 1 exponents, the first 0, and its polynomial has the roots
α^0 … α^(k-1) (41_tables.md R183, R184). -/
def Obligations.GeneratorRoots : Prop :=
  ∀ k ≤ 30, (genRom k).length = k + 1 ∧ (genRom k).head? = some 0 ∧
    ∀ i < k, polyEval (polyOfExponents (genRom k)) (expRom i) = 0

/-- The code is Reed–Solomon: a message followed by its remainder under slot k, as a polynomial, is 0
at α^0 … α^(k-1) (41_tables.md R184, 40_gf_engine.md R150). -/
def Obligations.CodewordSyndromesVanish : Prop :=
  ∀ (m : List Byte) (k i : Nat), k ≤ 30 → i < k → polyEval (m ++ div m (genRom k)) (expRom i) = 0

/-! ## The codeword structurer -/

/-- RSENC: the remainder of the block under the generator of (VER, ECL) is written at DADDR and RESULT
is k; BAD_VERSION, BAD_OPERAND, MSG_EMPTY, RANGE and OVERLAP in that order (42_structurer.md R210,
60_exceptions.md R273). -/
def Obligations.RsencEncodesBlock : Prop :=
  ∀ (ver : BitVec 6) (ecl : Ecl) (s : State) (k : Nat), k = (eccRow ver.toNat ecl).ect →
    (¬ (1 ≤ ver.toNat ∧ ver.toNat ≤ 40) → exec (.rsenc ver ecl) s = .next (s.faultEntry 0x03)) ∧
    (1 ≤ ver.toNat → ver.toNat ≤ 40 →
      (highHalf s.larg2 ≠ 0 → exec (.rsenc ver ecl) s = .next (s.faultEntry 0x06)) ∧
      (highHalf s.larg2 = 0 → highHalf s.larg0 = 0 →
        exec (.rsenc ver ecl) s = .next (s.faultEntry 0x0A)) ∧
      (highHalf s.larg2 = 0 → 1 ≤ highHalf s.larg0 →
        (8192 < lowHalf s.larg0 + highHalf s.larg0 ∨ 8192 < lowHalf s.larg2 + k) →
        exec (.rsenc ver ecl) s = .next (s.faultEntry 0x0C)) ∧
      (highHalf s.larg2 = 0 → 1 ≤ highHalf s.larg0 → lowHalf s.larg0 + highHalf s.larg0 ≤ 8192 →
        lowHalf s.larg2 + k ≤ 8192 →
        (¬ Apart (lowHalf s.larg2) k (lowHalf s.larg0) (highHalf s.larg0) →
          exec (.rsenc ver ecl) s = .next (s.faultEntry 0x0D)) ∧
        (Apart (lowHalf s.larg2) k (lowHalf s.larg0) (highHalf s.larg0) →
          ∀ m, s.cwram.readBytes (lowHalf s.larg0) (highHalf s.larg0) = .ok m →
            exec (.rsenc ver ecl) s =
              .next (s.wroteAt (lowHalf s.larg2) (div m (genRom k)) k))))

/-- A completed RSENC equals DIVIDE with the generator GETPOLY writes for the same (VER, ECL): the same
RESULT and the same bytes at the destination (42_structurer.md R210, 41_tables.md R182). -/
def Obligations.RsencEqualsDivide : Prop :=
  ∀ (ver : BitVec 6) (ecl : Ecl) (s₁ s₂ t₁ : State) (k : Nat), k = (eccRow ver.toNat ecl).ect →
    exec (.rsenc ver ecl) s₁ = .next t₁ → t₁.eng = .idle → s₂.larg0 = s₁.larg0 →
    s₂.larg2 = s₁.larg2 → highHalf s₂.larg1 = k + 1 → lowHalf s₂.larg1 + (k + 1) ≤ 8192 →
    Apart (lowHalf s₂.larg2) k (lowHalf s₂.larg1) (k + 1) →
    s₂.cwram.readBytes (lowHalf s₂.larg1) (k + 1) = .ok (genRom k) →
    s₂.cwram.readBytes (lowHalf s₂.larg0) (highHalf s₂.larg0) =
      s₁.cwram.readBytes (lowHalf s₁.larg0) (highHalf s₁.larg0) →
    ∃ t₂, exec .divide s₂ = .next t₂ ∧ t₂.eng = .idle ∧ t₂.result = t₁.result ∧
      ∀ a, lowHalf s₁.larg2 ≤ a → a < lowHalf s₁.larg2 + k → t₂.cwram.read a = t₁.cwram.read a

/-- STRUCT: the interleaved codewords are written at OADDR and RESULT is N; BAD_VERSION, BAD_OPERAND,
LEN_MISMATCH, RANGE and OVERLAP in that order (42_structurer.md R212, 60_exceptions.md R273). What the
codewords are is `InterleavePositions`. -/
def Obligations.StructInterleaves : Prop :=
  ∀ (ver : BitVec 6) (ecl : Ecl) (s : State) (row : EccRow) (n : Nat),
    row = eccRow ver.toNat ecl → n = row.dcw + row.ect * (row.c1 + row.c2) →
    (¬ (1 ≤ ver.toNat ∧ ver.toNat ≤ 40) → exec (.struct ver ecl) s = .next (s.faultEntry 0x03)) ∧
    (1 ≤ ver.toNat → ver.toNat ≤ 40 →
      (highHalf s.larg2 ≠ 0 → exec (.struct ver ecl) s = .next (s.faultEntry 0x06)) ∧
      (highHalf s.larg2 = 0 → highHalf s.larg0 ≠ row.dcw →
        exec (.struct ver ecl) s = .next (s.faultEntry 0x0B)) ∧
      (highHalf s.larg2 = 0 → highHalf s.larg0 = row.dcw →
        (8192 < lowHalf s.larg0 + row.dcw ∨ 8192 < lowHalf s.larg2 + n) →
        exec (.struct ver ecl) s = .next (s.faultEntry 0x0C)) ∧
      (highHalf s.larg2 = 0 → highHalf s.larg0 = row.dcw → lowHalf s.larg0 + row.dcw ≤ 8192 →
        lowHalf s.larg2 + n ≤ 8192 →
        (¬ Apart (lowHalf s.larg2) n (lowHalf s.larg0) row.dcw →
          exec (.struct ver ecl) s = .next (s.faultEntry 0x0D)) ∧
        (Apart (lowHalf s.larg2) n (lowHalf s.larg0) row.dcw →
          ∀ d, s.cwram.readBytes (lowHalf s.larg0) row.dcw = .ok d →
            exec (.struct ver ecl) s = .next (s.wroteAt (lowHalf s.larg2) (structured row d) n))))

/-- Where STRUCT puts each codeword: data codeword i of block b at i·nb + b, the last codeword of a
group-2 block at s1·nb + (b - c1), error codeword j of block b at Nd + j·nb + b
(42_structurer.md R213). -/
def Obligations.InterleavePositions : Prop :=
  ∀ (v : Nat) (e : Ecl) (row : EccRow) (d : List Byte), 1 ≤ v → v ≤ 40 → row = eccRow v e →
    d.length = row.dcw →
    (∀ b < row.c1 + row.c2, ∀ i < row.s1,
      (structured row d)[i * (row.c1 + row.c2) + b]? = d[blockStart row b + i]?) ∧
    (∀ b, row.c1 ≤ b → b < row.c1 + row.c2 →
      (structured row d)[row.s1 * (row.c1 + row.c2) + (b - row.c1)]? =
        d[blockStart row b + row.s1]?) ∧
    (∀ b < row.c1 + row.c2, ∀ j < row.ect,
      (structured row d)[row.dcw + j * (row.c1 + row.c2) + b]? =
        (div ((d.drop (blockStart row b)).take (if b < row.c1 then row.s1 else row.s2))
          (genRom row.ect))[j]?)

/-- The length of STRUCT's output is DCW + ECT × (c1 + c2), at most 3706, reached by version 40; it is
RESULT; and the data part is a permutation of the input (42_structurer.md R214). -/
def Obligations.StructOutputLength : Prop :=
  (∀ (v : Nat) (e : Ecl) (row : EccRow) (d : List Byte), 1 ≤ v → v ≤ 40 → row = eccRow v e →
    d.length = row.dcw →
    (structured row d).length = row.dcw + row.ect * (row.c1 + row.c2) ∧
    row.dcw + row.ect * (row.c1 + row.c2) ≤ 3706 ∧
    ((structured row d).take row.dcw).Perm d) ∧
  (∀ e, (eccRow 40 e).dcw + (eccRow 40 e).ect * ((eccRow 40 e).c1 + (eccRow 40 e).c2) = 3706) ∧
  (∀ (ver : BitVec 6) (e : Ecl) (row : EccRow) (s t : State), row = eccRow ver.toNat e →
    exec (.struct ver e) s = .next t → t.eng = .idle →
    t.result = BitVec.ofNat 32 (row.dcw + row.ect * (row.c1 + row.c2)))

/-- An input at SADDR = 0 and an output at OADDR = 2956 fit in CWRAM and do not overlap, for every
(version, ECL), and STRUCT completes on them (42_structurer.md R216). -/
def Obligations.StructFitsInCwram : Prop :=
  ∀ (ver : BitVec 6) (ecl : Ecl) (s : State) (row : EccRow) (d : List Byte), 1 ≤ ver.toNat →
    ver.toNat ≤ 40 → row = eccRow ver.toNat ecl → s.larg0 = BitVec.ofNat 32 (row.dcw * 65536) →
    s.larg2 = 2956 → s.cwram.readBytes 0 row.dcw = .ok d →
    row.dcw ≤ 2956 ∧ 2956 + (row.dcw + row.ect * (row.c1 + row.c2)) ≤ 6662 ∧
    exec (.struct ver ecl) s = .next (s.wroteAt 2956 (structured row d)
      (row.dcw + row.ect * (row.c1 + row.c2)))

/-! ## The capacity and structure tables -/

/-- DCW: RESULT is the number of data codewords; from 9 (1-H) to 2956 (40-L); 16 for 1-M
(41_tables.md R170). -/
def Obligations.DcwReadsTable : Prop :=
  (∀ (ver : BitVec 6) (ecl : Ecl) (s : State), 1 ≤ ver.toNat → ver.toNat ≤ 40 →
    exec (.dcw ver ecl) s = .next (s.resultIs (eccRow ver.toNat ecl).dcw)) ∧
  (∀ (ver : BitVec 6) (ecl : Ecl) (s : State), ¬ (1 ≤ ver.toNat ∧ ver.toNat ≤ 40) →
    exec (.dcw ver ecl) s = .next (s.faultEntry 0x03)) ∧
  (∀ v e, 1 ≤ v → v ≤ 40 → 9 ≤ (eccRow v e).dcw ∧ (eccRow v e).dcw ≤ 2956) ∧
  (eccRow 1 .H).dcw = 9 ∧ (eccRow 40 .L).dcw = 2956 ∧
  (∀ w : Word, w &&& 0xFFFF00FF = 0x00000020 →
    decode w = .ok (.dcw (w.extractLsb' 8 6) (Ecl.ofCode (w.extractLsb' 14 2)))) ∧
  decode 0x00004120 = .ok (.dcw 1 .M) ∧ (eccRow 1 .M).dcw = 16

/-- DBITS: RESULT is eight times the data codewords; 23648 for 40-L, the largest; 128 for 1-M
(41_tables.md R171). -/
def Obligations.DbitsReadsTable : Prop :=
  (∀ (ver : BitVec 6) (ecl : Ecl) (s : State), 1 ≤ ver.toNat → ver.toNat ≤ 40 →
    exec (.dbits ver ecl) s = .next (s.resultIs ((eccRow ver.toNat ecl).dcw * 8))) ∧
  (∀ (ver : BitVec 6) (ecl : Ecl) (s : State), ¬ (1 ≤ ver.toNat ∧ ver.toNat ≤ 40) →
    exec (.dbits ver ecl) s = .next (s.faultEntry 0x03)) ∧
  (∀ v e, 1 ≤ v → v ≤ 40 → (eccRow v e).dcw * 8 ≤ 23648) ∧ (eccRow 40 .L).dcw * 8 = 23648 ∧
  (∀ w : Word, w &&& 0xFFFF00FF = 0x00000021 →
    decode w = .ok (.dbits (w.extractLsb' 8 6) (Ecl.ofCode (w.extractLsb' 14 2)))) ∧
  decode 0x00004121 = .ok (.dbits 1 .M) ∧ (eccRow 1 .M).dcw * 8 = 128

/-- CCIB: RESULT is the width of the character-count indicator for the band of VER and the mode, with
the band edges at 9, 10, 26 and 27; BAD_VERSION before BAD_MODE (41_tables.md R172, R180, R181). -/
def Obligations.CcibReadsWidth : Prop :=
  (∀ (ver : BitVec 6) (mode : BitVec 2) (s : State) (w1 w2 w3 : Nat), 1 ≤ ver.toNat →
    ver.toNat ≤ 40 → (mode, w1, w2, w3) ∈ [(0, 10, 12, 14), (1, 9, 11, 13), (2, 8, 16, 16)] →
    exec (.ccib ver mode) s = .next (s.resultIs
      (if ver.toNat ≤ 9 then w1 else if ver.toNat ≤ 26 then w2 else w3))) ∧
  (∀ (ver : BitVec 6) (s : State), 1 ≤ ver.toNat → ver.toNat ≤ 40 →
    exec (.ccib ver 3) s = .next (s.faultEntry 0x04)) ∧
  (∀ (ver : BitVec 6) (mode : BitVec 2) (s : State), ¬ (1 ≤ ver.toNat ∧ ver.toNat ≤ 40) →
    exec (.ccib ver mode) s = .next (s.faultEntry 0x03)) ∧
  (∀ w : Word, w &&& 0xFFE7C0FF = 0x00000022 →
    decode w = .ok (.ccib (w.extractLsb' 8 6) (w.extractLsb' 19 2))) ∧
  decode 0x00080A22 = .ok (.ccib 10 1)

/-- GROUPS: RESULT packs c1, s1, c2 and s2 into its bytes from the low end, each of which fits its
byte; 0x10020F02 for 5-Q (41_tables.md R173). -/
def Obligations.GroupsPacksLayout : Prop :=
  (∀ (ver : BitVec 6) (ecl : Ecl) (s : State) (row : EccRow), 1 ≤ ver.toNat → ver.toNat ≤ 40 →
    row = eccRow ver.toNat ecl →
    exec (.groups ver ecl) s = .next (s.resultIs
      (row.c1 + 256 * row.s1 + 65536 * row.c2 + 16777216 * row.s2))) ∧
  (∀ (ver : BitVec 6) (ecl : Ecl) (s : State), ¬ (1 ≤ ver.toNat ∧ ver.toNat ≤ 40) →
    exec (.groups ver ecl) s = .next (s.faultEntry 0x03)) ∧
  (∀ v e, 1 ≤ v → v ≤ 40 → (eccRow v e).c1 ≤ 59 ∧ (eccRow v e).c2 ≤ 67 ∧
    (eccRow v e).c1 + (eccRow v e).c2 ≤ 81 ∧ (eccRow v e).s1 ≤ 123 ∧ (eccRow v e).s2 ≤ 123) ∧
  (∀ v e, 1 ≤ v → v ≤ 40 → (eccRow v e).c2 = 0 → (eccRow v e).s2 = 0) ∧
  (∀ w : Word, w &&& 0xFFFF00FF = 0x00000023 →
    decode w = .ok (.groups (w.extractLsb' 8 6) (Ecl.ofCode (w.extractLsb' 14 2)))) ∧
  decode 0x00008523 = .ok (.groups 5 .Q) ∧ eccRow 5 .Q = ⟨62, 18, 2, 15, 2, 16⟩ ∧
  2 + 256 * 15 + 65536 * 2 + 16777216 * 16 = 0x10020F02

/-- ECT: RESULT is the number of error-correction codewords per block; 7 for 1-L, 10 for 1-M
(41_tables.md R174). -/
def Obligations.EctReadsTable : Prop :=
  (∀ (ver : BitVec 6) (ecl : Ecl) (s : State), 1 ≤ ver.toNat → ver.toNat ≤ 40 →
    exec (.ect ver ecl) s = .next (s.resultIs (eccRow ver.toNat ecl).ect)) ∧
  (∀ (ver : BitVec 6) (ecl : Ecl) (s : State), ¬ (1 ≤ ver.toNat ∧ ver.toNat ≤ 40) →
    exec (.ect ver ecl) s = .next (s.faultEntry 0x03)) ∧
  (∀ v e, 1 ≤ v → v ≤ 40 → (eccRow v e).ect ∈ [7, 10, 13, 15, 16, 17, 18, 20, 22, 24, 26, 28, 30]) ∧
  (eccRow 1 .L).ect = 7 ∧
  (∀ w : Word, w &&& 0xFFFF00FF = 0x00000024 →
    decode w = .ok (.ect (w.extractLsb' 8 6) (Ecl.ofCode (w.extractLsb' 14 2)))) ∧
  decode 0x00004124 = .ok (.ect 1 .M) ∧ (eccRow 1 .M).ect = 10

/-- The invariants of the 160 rows: group sizes add up to the data codewords, group-2 blocks are one
longer, an absent group is (0, 0), and the ECT values that occur are exactly those listed
(41_tables.md R177, R178, R179). -/
def Obligations.EccTableInvariants : Prop :=
  (∀ v e, 1 ≤ v → v ≤ 40 →
    (eccRow v e).c1 * (eccRow v e).s1 + (eccRow v e).c2 * (eccRow v e).s2 = (eccRow v e).dcw ∧
    (0 < (eccRow v e).c2 → (eccRow v e).s2 = (eccRow v e).s1 + 1) ∧
    ((eccRow v e).c2 = 0 → (eccRow v e).s2 = 0)) ∧
  (∀ k, k ∈ [7, 10, 13, 15, 16, 17, 18, 20, 22, 24, 26, 28, 30] ↔
    ∃ v e, 1 ≤ v ∧ v ≤ 40 ∧ (eccRow v e).ect = k)

/-- GETPOLY: the generator of (VER, ECL) is written at DADDR, RESULT is k + 1; BAD_VERSION, BAD_OPERAND
and RANGE in that order; the example of 1-L (41_tables.md R175). -/
def Obligations.GetpolyWritesGenerator : Prop :=
  (∀ (ver : BitVec 6) (ecl : Ecl) (s : State) (k : Nat), k = (eccRow ver.toNat ecl).ect →
    (¬ (1 ≤ ver.toNat ∧ ver.toNat ≤ 40) → exec (.getpoly ver ecl) s = .next (s.faultEntry 0x03)) ∧
    (1 ≤ ver.toNat → ver.toNat ≤ 40 →
      (highHalf s.larg2 ≠ 0 → exec (.getpoly ver ecl) s = .next (s.faultEntry 0x06)) ∧
      (highHalf s.larg2 = 0 → 8192 < lowHalf s.larg2 + k + 1 →
        exec (.getpoly ver ecl) s = .next (s.faultEntry 0x0C)) ∧
      (highHalf s.larg2 = 0 → lowHalf s.larg2 + k + 1 ≤ 8192 →
        exec (.getpoly ver ecl) s = .next (s.wroteAt (lowHalf s.larg2) (genRom k) (k + 1))))) ∧
  (∀ v e, 1 ≤ v → v ≤ 40 → (genRom (eccRow v e).ect).length = (eccRow v e).ect + 1 ∧
    (genRom (eccRow v e).ect).head? = some 0 ∧ 7 ≤ (eccRow v e).ect ∧ (eccRow v e).ect ≤ 30) ∧
  (∀ w : Word, w &&& 0xFFFF00FF = 0x00000025 →
    decode w = .ok (.getpoly (w.extractLsb' 8 6) (Ecl.ofCode (w.extractLsb' 14 2)))) ∧
  (eccRow 1 .L).ect = 7 ∧ decode 0x00000125 = .ok (.getpoly 1 .L) ∧ genRom 7 = [0, 87, 229, 146, 149, 238, 102, 21]

/-- FMTINFO: RESULT is the format word of (ECL, MASK), with bits [31:15] 0, for every code; 0x5412 for
(M, 0) (41_tables.md R185). -/
def Obligations.FmtinfoReadsWord : Prop :=
  (∀ (ecl : Ecl) (mask : BitVec 3) (s : State),
    exec (.fmtinfo ecl mask) s = .next (s.resultIs (fmtRom ecl mask.toNat))) ∧
  (∀ e m, m < 8 → fmtRom e m < 2 ^ 15) ∧
  (∀ w : Word, w &&& 0xFFF83FFF = 0x00000026 →
    decode w = .ok (.fmtinfo (Ecl.ofCode (w.extractLsb' 14 2)) (w.extractLsb' 16 3))) ∧
  decode 0x00004026 = .ok (.fmtinfo .M 0) ∧ fmtRom .M 0 = 0x5412

/-- The construction of the format words and their distance: each is the BCH word of its 5 data bits
XOR 0x5412, and any two differ in at least 7 positions, 7 being reached (41_tables.md R186, R188). -/
def Obligations.FormatWordConstruction : Prop :=
  (∀ e m, m < 8 → fmtRom e m =
    (((formatIndicator e * 8 + m) <<< 10) + bchRemainder (formatIndicator e * 8 + m)) ^^^ 0x5412) ∧
  (∀ e e' m m', m < 8 → m' < 8 → (e, m) ≠ (e', m') →
    7 ≤ formatDistance (fmtRom e m) (fmtRom e' m')) ∧
  (∃ e e' m m', m < 8 ∧ m' < 8 ∧ formatDistance (fmtRom e m) (fmtRom e' m') = 7)

/-! ## The mask penalty ROM -/

/-- PSCORE: RESULT is the penalty of percentage bucket LARG0, the sentinel 255 for 101 to 255,
BAD_OPERAND above; 0 for 50, 100 for 100, 90 for 0, 10 for 43 (43_mask_penalty.md R240). -/
def Obligations.PscoreReadsPenalty : Prop :=
  (∀ s : State, s.larg0.toNat ≤ 255 → exec .pscore s = .next (s.resultIs (psrRom s.larg0.toNat))) ∧
  (∀ s : State, 255 < s.larg0.toNat → exec .pscore s = .next (s.faultEntry 0x06)) ∧
  decode 0x00000030 = .ok .pscore ∧
  (∀ p, 101 ≤ p → p ≤ 255 → psrRom p = 255) ∧ psrRom 50 = 0 ∧ psrRom 100 = 100 ∧ psrRom 0 = 90 ∧
  (∀ p ≤ 100, psrRom p ≤ 100) ∧ psrRom 43 = 10

/-- The two readings of the condition-4 rule: this hardware's PREV_NEXT, and FLOOR_ABS, which differs
from it exactly at ten indices and is 10 higher there (43_mask_penalty.md R241, R242). -/
def Obligations.PenaltyTableRules : Prop :=
  Config.percentRule = .prevNext ∧ (∀ p ≤ 255, psrRom p = psrOf .prevNext p) ∧
  (∀ p ≤ 100, psrOf .prevNext p = 10 * min ((5 * (p / 5) - 50) + (50 - 5 * (p / 5)))
    ((5 * (p / 5) + 5 - 50) + (50 - (5 * (p / 5) + 5))) / 5) ∧
  (∀ p ≤ 100, psrOf .floorAbs p = 10 * (((p - 50) + (50 - p)) / 5)) ∧
  (∀ p, 101 ≤ p → p ≤ 255 → psrOf .prevNext p = 255 ∧ psrOf .floorAbs p = 255) ∧
  (∀ p ≤ 255, psrOf .floorAbs p =
    if p ∈ [0, 5, 10, 15, 20, 25, 30, 35, 40, 45] then psrOf .prevNext p + 10 else psrOf .prevNext p)

/-- TRAIL: RESULT is 0 unless the low 5 bits are uniform, else the table entry of the bits from bit 4;
BAD_SIZE, then BAD_OPERAND for a buffer with a bit at or above SIZE; the examples 31 and 47 of size 7
(43_mask_penalty.md R243, R244). -/
def Obligations.TrailScoresRun : Prop :=
  (∀ (size : BitVec 4) (s : State), 5 ≤ size.toNat → size.toNat ≤ 11 →
    s.larg0.toNat < 2 ^ size.toNat →
    exec (.trail size) s = .next (s.resultIs
      (if s.larg0.toNat % 32 = 0 ∨ s.larg0.toNat % 32 = 31 then
        trlRom size.toNat (s.larg0.toNat / 16) else 0))) ∧
  (∀ (size : BitVec 4) (s : State), 5 ≤ size.toNat → size.toNat ≤ 11 →
    2 ^ size.toNat ≤ s.larg0.toNat → exec (.trail size) s = .next (s.faultEntry 0x06)) ∧
  (∀ (size : BitVec 4) (s : State), ¬ (5 ≤ size.toNat ∧ size.toNat ≤ 11) →
    exec (.trail size) s = .next (s.faultEntry 0x05)) ∧
  (∀ w : Word, w &&& 0xF0FFFFFF = 0x00000031 →
    decode w = .ok (.trail (w.extractLsb' 24 4))) ∧
  (∀ size buf, 5 ≤ size → size ≤ 11 → buf < 2 ^ size →
    trlRom size (buf / 16) ≤ trlRom size 0 ∧ trlRom size (buf / 16) ≤ trlRom size ((2 ^ size - 1) / 16)) ∧
  decode 0x07000031 = .ok (.trail 7) ∧ trlRom 7 1 = 3 ∧ 31 / 16 = 1 ∧ 47 % 32 = 15

/-- The condition-1 tables: entry idx of size s is m + 2 for the longest run of m equal bits from bit
0 in the s - 4 index bits; colour symmetry, range and the whole-window value; TRAIL returns 0 or a
value in 3..9 (43_mask_penalty.md R245, R246). -/
def Obligations.TrailTableLaws : Prop :=
  Config.trailTable = .runPenalty ∧
  (∀ (size : BitVec 4) (s t : State), exec (.trail size) s = .next t → t.eng = .idle →
    t.result = 0 ∨ (3 ≤ t.result.toNat ∧ t.result.toNat ≤ 9)) ∧
  ∀ s idx, 5 ≤ s → s ≤ 11 → idx < 2 ^ (s - 4) →
    (∃ m, 1 ≤ m ∧ m ≤ s - 4 ∧ trlRom s idx = m + 2 ∧
      (∀ j < m, idx.testBit j = idx.testBit 0) ∧ (m = s - 4 ∨ idx.testBit m ≠ idx.testBit 0)) ∧
    trlRom s idx = trlRom s (idx ^^^ (2 ^ (s - 4) - 1)) ∧
    3 ≤ trlRom s idx ∧ trlRom s idx ≤ s - 2 ∧
    trlRom s 0 = s - 2 ∧ trlRom s (2 ^ (s - 4) - 1) = s - 2
end

