-- ==== Sys2Proof/Laws/Division.lean ====
section
/-!
SUPPORT. The division function cell by cell: one row, one pivot, the lengths.
-/

namespace Sys2Proof.Machine

theorem divRow_fold_getElem? (f : Nat → Byte) (i n t : Nat) (buf : List Byte) :
    ((List.range n).foldl (fun b j => b.modify (i + j) (· ^^^ f j)) buf)[t]? =
      if i ≤ t ∧ t < i + n then buf[t]?.map (· ^^^ f (t - i)) else buf[t]? := by
  induction n with
  | zero => simp
  | succ n ih =>
    rw [List.range_succ, List.foldl_append, List.foldl_cons, List.foldl_nil, List.getElem?_modify, ih]
    by_cases ht : i + n = t
    · subst ht
      rw [if_neg (by omega), if_pos (by omega)]
      simp
    · simp only [ht, if_false, id_map']
      by_cases hr : i ≤ t ∧ t < i + n
      · rw [if_pos hr, if_pos (by omega)]
      · rw [if_neg hr, if_neg (by omega)]

/-- One row of R146: exactly the cells i..i+k change, each by its generator term. -/
theorem divRow_getElem? (g : List Byte) (a i t : Nat) (buf : List Byte) :
    (divRow g a i buf)[t]? =
      if i ≤ t ∧ t < i + g.length then
        buf[t]?.map (· ^^^ expRom (((g.getD (t - i) 0).toNat + a) % 255))
      else buf[t]? :=
  divRow_fold_getElem? (fun j => expRom (((g.getD j 0).toNat + a) % 255)) i g.length t buf

@[simp] theorem length_divRow (g : List Byte) (a i : Nat) (buf : List Byte) :
    (divRow g a i buf).length = buf.length := by
  unfold divRow
  generalize List.range g.length = js
  induction js generalizing buf with
  | nil => rfl
  | cons j rest ih => rw [List.foldl_cons, ih, List.length_modify]

@[simp] theorem length_divPivot (g buf : List Byte) (i : Nat) :
    (divPivot g buf i).length = buf.length := by
  unfold divPivot
  dsimp only
  split
  · rfl
  · exact length_divRow _ _ _ _

@[simp] theorem length_divBuffer (m g : List Byte) :
    (divBuffer m g).length = m.length + (g.length - 1) := by
  unfold divBuffer
  suffices ∀ is : List Nat, ∀ buf : List Byte,
      (is.foldl (divPivot g) buf).length = buf.length by simp [this]
  intro is
  induction is with
  | nil => simp
  | cons i rest ih => intro buf; rw [List.foldl_cons, ih, length_divPivot]

/-- The remainder has k = len(g) - 1 bytes (40_gf_engine.md R146). -/
@[simp] theorem length_div (m g : List Byte) : (div m g).length = g.length - 1 := by
  simp [div]

end Sys2Proof.Machine
end

