-- ==== Sys2Proof/Laws/Memory.lean ====
section
/-!
SUPPORT. CWRAM as a list of defined cells: what a write, an erasure and a read of several cells do,
and that every operation keeps the canonical form.
-/

namespace Sys2Proof.Machine

/-! ## One cell -/

@[simp] theorem Memory.read_nil (a : Nat) : Memory.read [] a = none := rfl

@[simp] theorem Memory.read_cons (x : Nat) (b : Byte) (m : Memory) (a : Nat) :
    Memory.read ((x, b) :: m) a = if x = a then some b else m.read a := rfl

@[simp] theorem Memory.read_write_same (m : Memory) (a : Nat) (b : Byte) :
    (m.write a b).read a = some b := by
  induction m with
  | nil => simp [Memory.write]
  | cons c rest ih =>
    obtain ⟨x, d⟩ := c
    simp only [Memory.write]
    split
    · simp
    · split
      · simp
      · rename_i h; simp [Ne.symm h, ih]

theorem Memory.read_write_other (m : Memory) {a a' : Nat} (b : Byte) (h : a ≠ a') :
    (m.write a b).read a' = m.read a' := by
  induction m with
  | nil => simp [Memory.write, h]
  | cons c rest ih =>
    obtain ⟨x, d⟩ := c
    simp only [Memory.write]
    split
    · simp [h]
    · split
      · rename_i hx; subst hx; simp [h]
      · simp [ih]

theorem Memory.mem_write {m : Memory} {a : Nat} {b : Byte} {c : Host.Cell}
    (h : c ∈ m.write a b) : c = (a, b) ∨ c ∈ m := by
  induction m with
  | nil => simpa [Memory.write] using h
  | cons d rest ih =>
    obtain ⟨x, e⟩ := d
    simp only [Memory.write] at h
    split at h
    · simpa using h
    · split at h
      · rcases List.mem_cons.1 h with h | h <;> simp [h]
      · rcases List.mem_cons.1 h with h | h
        · simp [h]
        · rcases ih h with h | h <;> simp [h]

/-! ## The canonical form -/

theorem Memory.wf_nil : Memory.wf [] := ⟨List.Pairwise.nil, by simp⟩

theorem Memory.wf_cons {x : Nat} {b : Byte} {m : Memory} :
    Memory.wf ((x, b) :: m) ↔
      (∀ c ∈ m, x < c.1) ∧ x < Config.cwramBytes ∧ m.wf := by
  simp only [Memory.wf, List.map_cons, List.pairwise_cons, List.mem_map, List.mem_cons,
    forall_eq_or_imp, forall_exists_index, and_imp, forall_apply_eq_imp_iff₂]
  tauto

theorem Memory.wf_write {m : Memory} (hm : m.wf) {a : Nat} (ha : a < Config.cwramBytes) (b : Byte) :
    (m.write a b).wf := by
  induction m with
  | nil => exact Memory.wf_cons.2 ⟨by simp, ha, Memory.wf_nil⟩
  | cons d rest ih =>
    obtain ⟨x, e⟩ := d
    obtain ⟨hlt, hx, hrest⟩ := Memory.wf_cons.1 hm
    simp only [Memory.write]
    split
    · rename_i hax
      refine Memory.wf_cons.2 ⟨?_, ha, hm⟩
      intro c hc
      rcases List.mem_cons.1 hc with rfl | hc
      · exact hax
      · exact hax.trans (hlt c hc)
    · split
      · rename_i _ hax
        subst hax
        exact Memory.wf_cons.2 ⟨hlt, ha, hrest⟩
      · refine Memory.wf_cons.2 ⟨?_, hx, ih hrest⟩
        intro c hc
        rcases Memory.mem_write hc with rfl | hc
        · show x < a
          omega
        · exact hlt c hc

theorem Memory.wf_erase {m : Memory} (hm : m.wf) (base n : Nat) : (m.erase base n).wf := by
  refine ⟨hm.1.sublist ?_, fun c hc => hm.2 c (List.mem_of_mem_filter hc)⟩
  exact (List.filter_sublist).map _

/-- A canonical memory lists no address below its first. -/
theorem Memory.read_eq_none_of_lt {m : Memory} {a : Nat} (h : ∀ c ∈ m, a < c.1) :
    m.read a = none := by
  induction m with
  | nil => rfl
  | cons d rest ih =>
    obtain ⟨x, e⟩ := d
    have hx : a < x := h (x, e) (by simp)
    simp [show x ≠ a by omega, ih fun c hc => h c (by simp [hc])]

/-- Canonical memories that read the same are the same data. -/
theorem Memory.ext_of_wf {m m' : Memory} (hm : m.wf) (hm' : m'.wf)
    (h : ∀ a, m.read a = m'.read a) : m = m' := by
  induction m generalizing m' with
  | nil =>
    cases m' with
    | nil => rfl
    | cons d rest => obtain ⟨y, e⟩ := d; have := h y; simp at this
  | cons c rest ih =>
    obtain ⟨x, b⟩ := c
    obtain ⟨hlt, -, hrest⟩ := Memory.wf_cons.1 hm
    cases m' with
    | nil => have := h x; simp at this
    | cons d rest' =>
      obtain ⟨y, e⟩ := d
      obtain ⟨hlt', -, hrest'⟩ := Memory.wf_cons.1 hm'
      have hxy : x = y := by
        rcases Nat.lt_trichotomy x y with hl | he | hl
        · have := h x
          rw [Memory.read_eq_none_of_lt (m := (y, e) :: rest')] at this
          · simp at this
          · intro c hc
            rcases List.mem_cons.1 hc with rfl | hc
            · exact hl
            · exact hl.trans (hlt' c hc)
        · exact he
        · have := h y
          rw [Memory.read_eq_none_of_lt (m := (x, b) :: rest)] at this
          · simp at this
          · intro c hc
            rcases List.mem_cons.1 hc with rfl | hc
            · exact hl
            · exact hl.trans (hlt c hc)
      subst hxy
      have hbe : b = e := by simpa using h x
      subst hbe
      congr 1
      refine ih hrest hrest' fun a => ?_
      by_cases ha : x = a
      · subst ha
        rw [Memory.read_eq_none_of_lt hlt, Memory.read_eq_none_of_lt hlt']
      · simpa [ha] using h a

/-! ## Several cells -/

theorem Memory.read_writeBytes_of_lt (m : Memory) {base a : Nat} (bs : List Byte) (h : a < base) :
    (m.writeBytes base bs).read a = m.read a := by
  induction bs generalizing m base with
  | nil => rfl
  | cons b rest ih =>
    rw [Memory.writeBytes, ih _ (by omega), Memory.read_write_other _ _ (by omega)]

/-- Outside the bytes written, every cell reads as before. -/
theorem Memory.read_writeBytes_of_outside (m : Memory) {base a : Nat} (bs : List Byte)
    (h : a < base ∨ base + bs.length ≤ a) : (m.writeBytes base bs).read a = m.read a := by
  induction bs generalizing m base with
  | nil => rfl
  | cons b rest ih =>
    have hl : (b :: rest).length = rest.length + 1 := rfl
    rw [hl] at h
    rw [Memory.writeBytes, ih _ (by omega), Memory.read_write_other _ _ (by omega)]

/-- A byte written reads back. -/
theorem Memory.read_writeBytes_of_inside (m : Memory) (base i : Nat) (bs : List Byte)
    (h : i < bs.length) : (m.writeBytes base bs).read (base + i) = bs[i]? := by
  induction bs generalizing m base i with
  | nil => simp at h
  | cons b rest ih =>
    cases i with
    | zero => simp [Memory.writeBytes, Memory.read_writeBytes_of_lt]
    | succ i =>
      have := ih (m.write base b) (base + 1) i (by simpa using h)
      rw [Memory.writeBytes, show base + (i + 1) = base + 1 + i by omega, this]
      rfl

theorem Memory.wf_writeBytes {m : Memory} (hm : m.wf) {base : Nat} (bs : List Byte)
    (h : base + bs.length ≤ Config.cwramBytes) : (m.writeBytes base bs).wf := by
  induction bs generalizing m base with
  | nil => exact hm
  | cons b rest ih =>
    have hl : (b :: rest).length = rest.length + 1 := rfl
    rw [hl] at h
    exact ih (Memory.wf_write hm (by omega) b) (by omega)

/-- An erased cell is undefined, every other cell reads as before. -/
theorem Memory.read_erase (m : Memory) (base n a : Nat) :
    (m.erase base n).read a = if base ≤ a ∧ a < base + n then none else m.read a := by
  induction m with
  | nil => simp [Memory.erase]
  | cons c rest ih =>
    obtain ⟨x, b⟩ := c
    simp only [Memory.erase, List.filter_cons] at ih ⊢
    by_cases hx : base ≤ x ∧ x < base + n
    · simp only [hx, and_self, not_true_eq_false, decide_false, Bool.false_eq_true, if_false,
        Memory.read_cons]
      rw [ih]
      by_cases ha : base ≤ a ∧ a < base + n
      · simp [ha]
      · have : x ≠ a := by rintro rfl; exact ha hx
        simp [ha, this]
    · simp only [hx, not_false_eq_true, decide_true, if_true, Memory.read_cons]
      rw [ih]
      by_cases hxa : x = a
      · subst hxa; simp [hx]
      · simp [hxa]

/-- A read of several cells answers exactly their bytes, each of them defined. -/
theorem Memory.readBytes_eq_ok {m : Memory} {base n : Nat} {bs : List Byte} :
    m.readBytes base n = .ok bs ↔ bs.length = n ∧ ∀ i < n, m.read (base + i) = bs[i]? := by
  induction n generalizing base bs with
  | zero => cases bs <;> simp [Memory.readBytes]
  | succ n ih =>
    simp only [Memory.readBytes]
    cases hr : m.read base with
    | none =>
      simp only [reduceCtorEq, false_iff, not_and, not_forall]
      intro hl
      refine ⟨0, by omega, ?_⟩
      cases bs with
      | nil => simp at hl
      | cons b rest => simp [hr]
    | some b =>
      cases hs : m.readBytes (base + 1) n with
      | error e =>
        simp only [reduceCtorEq, false_iff, not_and]
        intro hl hall
        cases bs with
        | nil => simp at hl
        | cons d rest =>
          have : m.readBytes (base + 1) n = .ok rest := ih.2 ⟨by simpa using hl, fun i hi => by
            have := hall (i + 1) (by omega)
            simpa [show base + (i + 1) = base + 1 + i by omega] using this⟩
          rw [hs] at this
          cases this
      | ok rest =>
        obtain ⟨hlen, hall⟩ := ih.1 hs
        simp only [Except.ok.injEq]
        constructor
        · rintro rfl
          refine ⟨by simp [hlen], fun i hi => ?_⟩
          cases i with
          | zero => simp [hr]
          | succ i =>
            have := hall i (by omega)
            simpa [show base + (i + 1) = base + 1 + i by omega] using this
        · rintro ⟨hl, h⟩
          cases bs with
          | nil => simp at hl
          | cons d rest' =>
            have h0 : some b = some d := by simpa [hr] using h 0 (by omega)
            have htail : m.readBytes (base + 1) n = .ok rest' :=
              ih.2 ⟨by simpa using hl, fun i hi => by
                have := h (i + 1) (by omega)
                simpa [show base + (i + 1) = base + 1 + i by omega] using this⟩
            rw [hs] at htail
            simp only [Except.ok.injEq] at htail
            simp_all

/-- Cells that are all defined can be read. -/
theorem Memory.exists_readBytes {m : Memory} {base n : Nat}
    (h : ∀ i < n, (m.read (base + i)).isSome) : ∃ bs, m.readBytes base n = .ok bs := by
  induction n generalizing base with
  | zero => exact ⟨[], rfl⟩
  | succ n ih =>
    obtain ⟨b, hb⟩ := Option.isSome_iff_exists.1 (h 0 (by omega))
    obtain ⟨bs, hbs⟩ := ih (base := base + 1) fun i hi => by
      simpa [show base + (i + 1) = base + 1 + i by omega] using h (i + 1) (by omega)
    exact ⟨b :: bs, by simp only [Nat.add_zero] at hb; simp [Memory.readBytes, hb, hbs]⟩

end Sys2Proof.Machine
end

