-- ==== Sys2Proof/Laws/Ops.lean ====
section
/-!
SUPPORT. What the shared operations of a command can answer, each said once, and the one inversion
lemma of `exec`.
-/

namespace Sys2Proof.Machine

/-- A command whose only output is RESULT always answers a next state. -/
theorem finish_eq_next {s t : State} {r : Except Cause Word} :
    finish s r = .next t ↔
      (∃ c, r = .error c ∧ t = s.raiseFault c) ∨ (∃ w, r = .ok w ∧ t = s.complete w) := by
  cases r <;> simp [finish, eq_comm]

@[simp] theorem finish_ok (s : State) (w : Word) : finish s (.ok w) = .next (s.complete w) := rfl

@[simp] theorem finish_error (s : State) (c : Cause) :
    finish s (.error c) = .next (s.raiseFault c) := rfl

theorem withRanges_eq_next {s t : State} {r : Except Cause Ranges} {k : Ranges → Answer} :
    withRanges s r k = .next t ↔
      (∃ c, r = .error c ∧ t = s.raiseFault c) ∨ (∃ rs, r = .ok rs ∧ k rs = .next t) := by
  cases r <;> simp [withRanges, eq_comm]

@[simp] theorem withRanges_ok (s : State) (rs : Ranges) (k : Ranges → Answer) :
    withRanges s (.ok rs) k = k rs := rfl

@[simp] theorem withRanges_error (s : State) (c : Cause) (k : Ranges → Answer) :
    withRanges s (.error c) k = .next (s.raiseFault c) := rfl

/-- A command goes on exactly when every cell of the range is defined. -/
theorem readThen_eq_next {s t : State} {r : Range} {k : List Byte → Answer} :
    readThen s r k = .next t ↔ ∃ bs, s.cwram.readBytes r.base r.len = .ok bs ∧ k bs = .next t := by
  unfold readThen
  cases s.cwram.readBytes r.base r.len <;> simp

theorem readThen_of_ok {s : State} {r : Range} {bs : List Byte} (k : List Byte → Answer)
    (h : s.cwram.readBytes r.base r.len = .ok bs) : readThen s r k = k bs := by
  simp [readThen, h]

/-- The field check of VER and the table row. -/
theorem checkedRow_eq_ok {ver : BitVec 6} {ecl : Ecl} {row : EccRow} :
    checkedRow ver ecl = .ok row ↔ versionLegal ver = true ∧ row = eccRow ver.toNat ecl := by
  unfold checkedRow
  generalize eccRow ver.toNat ecl = q
  split
  · rename_i h
    simp only [Except.ok.injEq, h, true_and]
    exact eq_comm
  · rename_i h
    simp only [reduceCtorEq, h, false_and, Bool.false_eq_true]

/-- In bounds (20_memory.md R87). -/
theorem Range.inBounds_iff {r : Range} : r.inBounds = true ↔ r.base + r.len ≤ 8192 :=
  decide_eq_true_iff

/-- Overlap (20_memory.md R88). -/
theorem Range.overlaps_iff {a b : Range} : a.overlaps b = true ↔
    a.len ≠ 0 ∧ b.len ≠ 0 ∧ a.base < b.base + b.len ∧ b.base < a.base + a.len :=
  decide_eq_true_iff

theorem Range.contains_iff {r : Range} {a : Nat} :
    r.contains a = true ↔ r.base ≤ a ∧ a < r.base + r.len :=
  decide_eq_true_iff

theorem versionLegal_iff {ver : BitVec 6} :
    versionLegal ver = true ↔ 1 ≤ ver.toNat ∧ ver.toNat ≤ 40 :=
  decide_eq_true_iff

theorem sizeLegal_iff {size : BitVec 4} :
    sizeLegal size = true ↔ 5 ≤ size.toNat ∧ size.toNat ≤ 11 :=
  decide_eq_true_iff

/-- The range checks pass exactly when every range is in bounds and the destination overlaps no
source. -/
theorem checkedRanges_eq_ok {r r' : Ranges} :
    checkedRanges r = .ok r' ↔
      r' = r ∧ r.source.inBounds ∧ r.generator.inBounds ∧ r.dest.inBounds
        ∧ r.dest.overlaps r.source = false ∧ r.dest.overlaps r.generator = false := by
  unfold checkedRanges
  split
  · rename_i h
    constructor
    · intro h'; cases h'
    · rintro ⟨-, h1, h2, h3, -⟩; exact absurd ⟨h1, h2, h3⟩ h
  · split
    · rename_i h
      constructor
      · intro h'; cases h'
      · rintro ⟨-, -, -, -, h1, h2⟩
        rcases h with h | h <;> simp_all
    · rename_i h1 h2
      simp only [Except.ok.injEq]
      constructor
      · rintro rfl
        simp only [not_not] at h1
        simp only [not_or, Bool.not_eq_true] at h2
        exact ⟨rfl, h1.1, h1.2.1, h1.2.2, h2.1, h2.2⟩
      · rintro ⟨rfl, -⟩; rfl

/-- Once a command's checks pass, its destination is in bounds. -/
theorem commandRanges_dest_inBounds {i : Instr} {s : State} {r : Ranges}
    (h : commandRanges i s = .ok r) : r.dest.base + r.dest.len ≤ Config.cwramBytes := by
  have key : ∀ q : Ranges, checkedRanges q = .ok r → r.dest.base + r.dest.len ≤ Config.cwramBytes := by
    intro q hq
    obtain ⟨rfl, -, -, hd, -⟩ := checkedRanges_eq_ok.1 hq
    simpa [Range.inBounds] using hd
  cases i <;> simp only [commandRanges] at h
  case divide =>
    unfold divideRanges at h
    repeat' split at h
    all_goals first | exact key _ h | cases h
  case rsenc =>
    unfold rsencRanges at h
    repeat' split at h
    all_goals first | exact key _ h | cases h
  case struct =>
    unfold structRanges at h
    repeat' split at h
    all_goals first | exact key _ h | cases h
  case getpoly =>
    unfold getpolyRanges at h
    repeat' split at h
    all_goals first | exact key _ h | cases h
  all_goals
    cases h
    simp [Range.empty]

/-- What a command can do: raise a fault, write RESULT, or write RESULT and bytes at the destination
of its ranges. -/
theorem exec_cases {i : Instr} {s t : State} (h : exec i s = .next t) :
    (∃ c, t = s.raiseFault c) ∨ (∃ w, t = s.complete w) ∨
      (∃ r bs w, commandRanges i s = .ok r ∧ t = s.completeWrite r.dest.base bs w) := by
  have hf : ∀ r, finish s r = .next t → (∃ c, t = s.raiseFault c) ∨ (∃ w, t = s.complete w) ∨
      (∃ r bs w, commandRanges i s = .ok r ∧ t = s.completeWrite r.dest.base bs w) := by
    intro r hr
    rcases finish_eq_next.1 hr with ⟨c, -, ht⟩ | ⟨w, -, ht⟩
    · exact .inl ⟨c, ht⟩
    · exact .inr (.inl ⟨w, ht⟩)
  cases i
  case divide =>
    rcases withRanges_eq_next.1 h with ⟨c, -, ht⟩ | ⟨r, hr, h⟩
    · exact .inl ⟨c, ht⟩
    · obtain ⟨g, -, h⟩ := readThen_eq_next.1 h
      obtain ⟨m, -, h⟩ := readThen_eq_next.1 h
      exact .inr (.inr ⟨r, _, _, hr, by simpa [eq_comm] using h⟩)
  case rsenc ver ecl =>
    rcases withRanges_eq_next.1 h with ⟨c, -, ht⟩ | ⟨r, hr, h⟩
    · exact .inl ⟨c, ht⟩
    · obtain ⟨m, -, h⟩ := readThen_eq_next.1 h
      exact .inr (.inr ⟨r, _, _, hr, by simpa [eq_comm] using h⟩)
  case struct ver ecl =>
    rcases withRanges_eq_next.1 h with ⟨c, -, ht⟩ | ⟨r, hr, h⟩
    · exact .inl ⟨c, ht⟩
    · obtain ⟨d, -, h⟩ := readThen_eq_next.1 h
      exact .inr (.inr ⟨r, _, _, hr, by simpa [eq_comm] using h⟩)
  case getpoly ver ecl =>
    rcases withRanges_eq_next.1 h with ⟨c, -, ht⟩ | ⟨r, hr, h⟩
    · exact .inl ⟨c, ht⟩
    · exact .inr (.inr ⟨r, _, _, hr, by simpa [eq_comm] using h⟩)
  all_goals
    simp only [exec, execExp, execLog, execDcw, execDbits, execCcib, execGroups, execEct,
      execFmtinfo, execPscore, execTrail] at h
    exact hf _ h

end Sys2Proof.Machine
end

