-- ==== Sys2Proof/Laws/PerInstr.lean ====
section
/-!
SUPPORT. One statement per command as syntax: its encoding selects the row of 30_encoding.md R113 whose
match and mask words are written out here a second time, from spec/opcode_table.json.
-/

namespace Sys2Proof.Laws.EncodingSelectsRow

/-- Match and mask of a command's row (spec/opcode_table.json). -/
def matchMask : Instr → Word × Word
  | .exp => (0x00000001, 0xFFFFFFFF)
  | .log => (0x00000002, 0xFFFFFFFF)
  | .divide => (0x00000010, 0xFFFFFFFF)
  | .rsenc _ _ => (0x00000011, 0xFFFF00FF)
  | .struct _ _ => (0x00000012, 0xFFFF00FF)
  | .dcw _ _ => (0x00000020, 0xFFFF00FF)
  | .dbits _ _ => (0x00000021, 0xFFFF00FF)
  | .ccib _ _ => (0x00000022, 0xFFE7C0FF)
  | .groups _ _ => (0x00000023, 0xFFFF00FF)
  | .ect _ _ => (0x00000024, 0xFFFF00FF)
  | .getpoly _ _ => (0x00000025, 0xFFFF00FF)
  | .fmtinfo _ _ => (0x00000026, 0xFFF83FFF)
  | .pscore => (0x00000030, 0xFFFFFFFF)
  | .trail _ => (0x00000031, 0xF0FFFFFF)

/-- The encoding of the command, masked, is the row's match word. -/
def Statement (i : Instr) : Prop := encode i &&& (matchMask i).2 = (matchMask i).1

/-- VER, ECL and no other field: the row mask 0xFFFF00FF leaves the opcode. -/
theorem pack_version_ecl (op : BitVec 8) (ver : BitVec 6) (ecl : BitVec 2) :
    packWord op ver ecl 0 0 0 &&& 0xFFFF00FF = op.setWidth 32 := by
  unfold packWord
  ext i hi
  simp only [BitVec.getElem_and, BitVec.getElem_or, BitVec.getElem_setWidth,
    BitVec.getElem_shiftLeft]
  interval_cases i <;> simp

theorem exp : Statement .exp := by unfold Statement; decide
theorem log : Statement .log := by unfold Statement; decide
theorem divide : Statement .divide := by unfold Statement; decide
theorem rsenc (ver : BitVec 6) (ecl : Ecl) : Statement (.rsenc ver ecl) := pack_version_ecl _ _ _
theorem struct (ver : BitVec 6) (ecl : Ecl) : Statement (.struct ver ecl) := pack_version_ecl _ _ _
theorem dcw (ver : BitVec 6) (ecl : Ecl) : Statement (.dcw ver ecl) := pack_version_ecl _ _ _
theorem dbits (ver : BitVec 6) (ecl : Ecl) : Statement (.dbits ver ecl) := pack_version_ecl _ _ _
theorem ccib (ver : BitVec 6) (mode : BitVec 2) : Statement (.ccib ver mode) := by
  revert mode ver; unfold Statement; decide
theorem groups (ver : BitVec 6) (ecl : Ecl) : Statement (.groups ver ecl) := pack_version_ecl _ _ _
theorem ect (ver : BitVec 6) (ecl : Ecl) : Statement (.ect ver ecl) := pack_version_ecl _ _ _
theorem getpoly (ver : BitVec 6) (ecl : Ecl) : Statement (.getpoly ver ecl) := pack_version_ecl _ _ _
theorem fmtinfo (ecl : Ecl) (mask : BitVec 3) : Statement (.fmtinfo ecl mask) := by
  revert mask; unfold Statement; cases ecl <;> decide
theorem pscore : Statement .pscore := by unfold Statement; decide
theorem trail (size : BitVec 4) : Statement (.trail size) := by
  revert size; unfold Statement; decide

end Sys2Proof.Laws.EncodingSelectsRow
end

