-- ==== Sys2Proof/Laws/State.lean ====
section
/-!
SUPPORT. One lemma per field per update of State, so that no later proof unfolds a record update.
-/

namespace Sys2Proof.Machine

variable (s : State)

/-! ## acceptCommand -/

@[simp] theorem State.acceptCommand_eng (w : Word) : (s.acceptCommand w).eng = .busy := rfl
@[simp] theorem State.acceptCommand_irqen (w : Word) : (s.acceptCommand w).irqen = s.irqen := rfl
@[simp] theorem State.acceptCommand_done (w : Word) : (s.acceptCommand w).done = false := rfl
@[simp] theorem State.acceptCommand_ovr (w : Word) : (s.acceptCommand w).ovr = s.ovr := rfl
@[simp] theorem State.acceptCommand_fcause (w : Word) : (s.acceptCommand w).fcause = s.fcause := rfl
@[simp] theorem State.acceptCommand_cmdlast (w : Word) : (s.acceptCommand w).cmdlast = w := rfl
@[simp] theorem State.acceptCommand_arg0 (w : Word) : (s.acceptCommand w).arg0 = s.arg0 := rfl
@[simp] theorem State.acceptCommand_arg1 (w : Word) : (s.acceptCommand w).arg1 = s.arg1 := rfl
@[simp] theorem State.acceptCommand_arg2 (w : Word) : (s.acceptCommand w).arg2 = s.arg2 := rfl
@[simp] theorem State.acceptCommand_result (w : Word) : (s.acceptCommand w).result = s.result := rfl
@[simp] theorem State.acceptCommand_fcmd (w : Word) : (s.acceptCommand w).fcmd = s.fcmd := rfl
@[simp] theorem State.acceptCommand_lcmd (w : Word) : (s.acceptCommand w).lcmd = w := rfl
@[simp] theorem State.acceptCommand_larg0 (w : Word) : (s.acceptCommand w).larg0 = s.arg0 := rfl
@[simp] theorem State.acceptCommand_larg1 (w : Word) : (s.acceptCommand w).larg1 = s.arg1 := rfl
@[simp] theorem State.acceptCommand_larg2 (w : Word) : (s.acceptCommand w).larg2 = s.arg2 := rfl
@[simp] theorem State.acceptCommand_cwram (w : Word) : (s.acceptCommand w).cwram = s.cwram := rfl
@[simp] theorem State.acceptCommand_rstN (w : Word) : (s.acceptCommand w).rstN = s.rstN := rfl
@[simp] theorem State.acceptCommand_response (w : Word) : (s.acceptCommand w).response = s.response := rfl
@[simp] theorem State.acceptCommand_turns (w : Word) : (s.acceptCommand w).turns = s.turns := rfl

/-! ## complete -/

@[simp] theorem State.complete_eng (w : Word) : (s.complete w).eng = .idle := rfl
@[simp] theorem State.complete_irqen (w : Word) : (s.complete w).irqen = s.irqen := rfl
@[simp] theorem State.complete_done (w : Word) : (s.complete w).done = true := rfl
@[simp] theorem State.complete_ovr (w : Word) : (s.complete w).ovr = s.ovr := rfl
@[simp] theorem State.complete_fcause (w : Word) : (s.complete w).fcause = s.fcause := rfl
@[simp] theorem State.complete_cmdlast (w : Word) : (s.complete w).cmdlast = s.cmdlast := rfl
@[simp] theorem State.complete_arg0 (w : Word) : (s.complete w).arg0 = s.arg0 := rfl
@[simp] theorem State.complete_arg1 (w : Word) : (s.complete w).arg1 = s.arg1 := rfl
@[simp] theorem State.complete_arg2 (w : Word) : (s.complete w).arg2 = s.arg2 := rfl
@[simp] theorem State.complete_result (w : Word) : (s.complete w).result = w := rfl
@[simp] theorem State.complete_fcmd (w : Word) : (s.complete w).fcmd = s.fcmd := rfl
@[simp] theorem State.complete_lcmd (w : Word) : (s.complete w).lcmd = s.lcmd := rfl
@[simp] theorem State.complete_larg0 (w : Word) : (s.complete w).larg0 = s.larg0 := rfl
@[simp] theorem State.complete_larg1 (w : Word) : (s.complete w).larg1 = s.larg1 := rfl
@[simp] theorem State.complete_larg2 (w : Word) : (s.complete w).larg2 = s.larg2 := rfl
@[simp] theorem State.complete_cwram (w : Word) : (s.complete w).cwram = s.cwram := rfl
@[simp] theorem State.complete_rstN (w : Word) : (s.complete w).rstN = s.rstN := rfl
@[simp] theorem State.complete_response (w : Word) : (s.complete w).response = s.response := rfl
@[simp] theorem State.complete_turns (w : Word) : (s.complete w).turns = s.turns := rfl

/-! ## completeWrite -/

@[simp] theorem State.completeWrite_eng (b : Nat) (bs : List Byte) (w : Word) : (s.completeWrite b bs w).eng = .idle := rfl
@[simp] theorem State.completeWrite_irqen (b : Nat) (bs : List Byte) (w : Word) : (s.completeWrite b bs w).irqen = s.irqen := rfl
@[simp] theorem State.completeWrite_done (b : Nat) (bs : List Byte) (w : Word) : (s.completeWrite b bs w).done = true := rfl
@[simp] theorem State.completeWrite_ovr (b : Nat) (bs : List Byte) (w : Word) : (s.completeWrite b bs w).ovr = s.ovr := rfl
@[simp] theorem State.completeWrite_fcause (b : Nat) (bs : List Byte) (w : Word) : (s.completeWrite b bs w).fcause = s.fcause := rfl
@[simp] theorem State.completeWrite_cmdlast (b : Nat) (bs : List Byte) (w : Word) : (s.completeWrite b bs w).cmdlast = s.cmdlast := rfl
@[simp] theorem State.completeWrite_arg0 (b : Nat) (bs : List Byte) (w : Word) : (s.completeWrite b bs w).arg0 = s.arg0 := rfl
@[simp] theorem State.completeWrite_arg1 (b : Nat) (bs : List Byte) (w : Word) : (s.completeWrite b bs w).arg1 = s.arg1 := rfl
@[simp] theorem State.completeWrite_arg2 (b : Nat) (bs : List Byte) (w : Word) : (s.completeWrite b bs w).arg2 = s.arg2 := rfl
@[simp] theorem State.completeWrite_result (b : Nat) (bs : List Byte) (w : Word) : (s.completeWrite b bs w).result = w := rfl
@[simp] theorem State.completeWrite_fcmd (b : Nat) (bs : List Byte) (w : Word) : (s.completeWrite b bs w).fcmd = s.fcmd := rfl
@[simp] theorem State.completeWrite_lcmd (b : Nat) (bs : List Byte) (w : Word) : (s.completeWrite b bs w).lcmd = s.lcmd := rfl
@[simp] theorem State.completeWrite_larg0 (b : Nat) (bs : List Byte) (w : Word) : (s.completeWrite b bs w).larg0 = s.larg0 := rfl
@[simp] theorem State.completeWrite_larg1 (b : Nat) (bs : List Byte) (w : Word) : (s.completeWrite b bs w).larg1 = s.larg1 := rfl
@[simp] theorem State.completeWrite_larg2 (b : Nat) (bs : List Byte) (w : Word) : (s.completeWrite b bs w).larg2 = s.larg2 := rfl
@[simp] theorem State.completeWrite_cwram (b : Nat) (bs : List Byte) (w : Word) : (s.completeWrite b bs w).cwram = s.cwram.writeBytes b bs := rfl
@[simp] theorem State.completeWrite_rstN (b : Nat) (bs : List Byte) (w : Word) : (s.completeWrite b bs w).rstN = s.rstN := rfl
@[simp] theorem State.completeWrite_response (b : Nat) (bs : List Byte) (w : Word) : (s.completeWrite b bs w).response = s.response := rfl
@[simp] theorem State.completeWrite_turns (b : Nat) (bs : List Byte) (w : Word) : (s.completeWrite b bs w).turns = s.turns := rfl

/-! ## raiseFault -/

@[simp] theorem State.raiseFault_eng (c : Cause) : (s.raiseFault c).eng = .faulted := rfl
@[simp] theorem State.raiseFault_irqen (c : Cause) : (s.raiseFault c).irqen = s.irqen := rfl
@[simp] theorem State.raiseFault_done (c : Cause) : (s.raiseFault c).done = true := rfl
@[simp] theorem State.raiseFault_ovr (c : Cause) : (s.raiseFault c).ovr = s.ovr := rfl
@[simp] theorem State.raiseFault_fcause (c : Cause) : (s.raiseFault c).fcause = causeCode c := rfl
@[simp] theorem State.raiseFault_cmdlast (c : Cause) : (s.raiseFault c).cmdlast = s.cmdlast := rfl
@[simp] theorem State.raiseFault_arg0 (c : Cause) : (s.raiseFault c).arg0 = s.arg0 := rfl
@[simp] theorem State.raiseFault_arg1 (c : Cause) : (s.raiseFault c).arg1 = s.arg1 := rfl
@[simp] theorem State.raiseFault_arg2 (c : Cause) : (s.raiseFault c).arg2 = s.arg2 := rfl
@[simp] theorem State.raiseFault_result (c : Cause) : (s.raiseFault c).result = s.result := rfl
@[simp] theorem State.raiseFault_fcmd (c : Cause) : (s.raiseFault c).fcmd = s.lcmd := rfl
@[simp] theorem State.raiseFault_lcmd (c : Cause) : (s.raiseFault c).lcmd = s.lcmd := rfl
@[simp] theorem State.raiseFault_larg0 (c : Cause) : (s.raiseFault c).larg0 = s.larg0 := rfl
@[simp] theorem State.raiseFault_larg1 (c : Cause) : (s.raiseFault c).larg1 = s.larg1 := rfl
@[simp] theorem State.raiseFault_larg2 (c : Cause) : (s.raiseFault c).larg2 = s.larg2 := rfl
@[simp] theorem State.raiseFault_cwram (c : Cause) : (s.raiseFault c).cwram = s.cwram := rfl
@[simp] theorem State.raiseFault_rstN (c : Cause) : (s.raiseFault c).rstN = s.rstN := rfl
@[simp] theorem State.raiseFault_response (c : Cause) : (s.raiseFault c).response = s.response := rfl
@[simp] theorem State.raiseFault_turns (c : Cause) : (s.raiseFault c).turns = s.turns := rfl

/-! ## writeStatus -/

@[simp] theorem State.writeStatus_eng (w : Word) : (s.writeStatus w).eng = s.eng := rfl
@[simp] theorem State.writeStatus_irqen (w : Word) : (s.writeStatus w).irqen = s.irqen := rfl
@[simp] theorem State.writeStatus_done (w : Word) : (s.writeStatus w).done = (s.done && !w.getLsbD 1) := rfl
@[simp] theorem State.writeStatus_ovr (w : Word) : (s.writeStatus w).ovr = (s.ovr && !w.getLsbD 3) := rfl
@[simp] theorem State.writeStatus_fcause (w : Word) : (s.writeStatus w).fcause = s.fcause := rfl
@[simp] theorem State.writeStatus_cmdlast (w : Word) : (s.writeStatus w).cmdlast = s.cmdlast := rfl
@[simp] theorem State.writeStatus_arg0 (w : Word) : (s.writeStatus w).arg0 = s.arg0 := rfl
@[simp] theorem State.writeStatus_arg1 (w : Word) : (s.writeStatus w).arg1 = s.arg1 := rfl
@[simp] theorem State.writeStatus_arg2 (w : Word) : (s.writeStatus w).arg2 = s.arg2 := rfl
@[simp] theorem State.writeStatus_result (w : Word) : (s.writeStatus w).result = s.result := rfl
@[simp] theorem State.writeStatus_fcmd (w : Word) : (s.writeStatus w).fcmd = s.fcmd := rfl
@[simp] theorem State.writeStatus_lcmd (w : Word) : (s.writeStatus w).lcmd = s.lcmd := rfl
@[simp] theorem State.writeStatus_larg0 (w : Word) : (s.writeStatus w).larg0 = s.larg0 := rfl
@[simp] theorem State.writeStatus_larg1 (w : Word) : (s.writeStatus w).larg1 = s.larg1 := rfl
@[simp] theorem State.writeStatus_larg2 (w : Word) : (s.writeStatus w).larg2 = s.larg2 := rfl
@[simp] theorem State.writeStatus_cwram (w : Word) : (s.writeStatus w).cwram = s.cwram := rfl
@[simp] theorem State.writeStatus_rstN (w : Word) : (s.writeStatus w).rstN = s.rstN := rfl
@[simp] theorem State.writeStatus_response (w : Word) : (s.writeStatus w).response = s.response := rfl
@[simp] theorem State.writeStatus_turns (w : Word) : (s.writeStatus w).turns = s.turns := rfl

/-! ## resetRegisters -/

@[simp] theorem State.resetRegisters_eng : (s.resetRegisters).eng = .idle := rfl
@[simp] theorem State.resetRegisters_irqen : (s.resetRegisters).irqen = false := rfl
@[simp] theorem State.resetRegisters_done : (s.resetRegisters).done = false := rfl
@[simp] theorem State.resetRegisters_ovr : (s.resetRegisters).ovr = false := rfl
@[simp] theorem State.resetRegisters_fcause : (s.resetRegisters).fcause = 0 := rfl
@[simp] theorem State.resetRegisters_cmdlast : (s.resetRegisters).cmdlast = 0 := rfl
@[simp] theorem State.resetRegisters_arg0 : (s.resetRegisters).arg0 = 0 := rfl
@[simp] theorem State.resetRegisters_arg1 : (s.resetRegisters).arg1 = 0 := rfl
@[simp] theorem State.resetRegisters_arg2 : (s.resetRegisters).arg2 = 0 := rfl
@[simp] theorem State.resetRegisters_result : (s.resetRegisters).result = 0 := rfl
@[simp] theorem State.resetRegisters_fcmd : (s.resetRegisters).fcmd = 0 := rfl
@[simp] theorem State.resetRegisters_lcmd : (s.resetRegisters).lcmd = s.lcmd := rfl
@[simp] theorem State.resetRegisters_larg0 : (s.resetRegisters).larg0 = s.larg0 := rfl
@[simp] theorem State.resetRegisters_larg1 : (s.resetRegisters).larg1 = s.larg1 := rfl
@[simp] theorem State.resetRegisters_larg2 : (s.resetRegisters).larg2 = s.larg2 := rfl
@[simp] theorem State.resetRegisters_cwram : (s.resetRegisters).cwram = s.abandonedCwram := rfl
@[simp] theorem State.resetRegisters_rstN : (s.resetRegisters).rstN = s.rstN := rfl
@[simp] theorem State.resetRegisters_response : (s.resetRegisters).response = s.response := rfl
@[simp] theorem State.resetRegisters_turns : (s.resetRegisters).turns = s.turns := rfl

/-! ## respond -/

@[simp] theorem State.respond_eng (r : BusResponse) : (s.respond r).eng = s.eng := rfl
@[simp] theorem State.respond_irqen (r : BusResponse) : (s.respond r).irqen = s.irqen := rfl
@[simp] theorem State.respond_done (r : BusResponse) : (s.respond r).done = s.done := rfl
@[simp] theorem State.respond_ovr (r : BusResponse) : (s.respond r).ovr = s.ovr := rfl
@[simp] theorem State.respond_fcause (r : BusResponse) : (s.respond r).fcause = s.fcause := rfl
@[simp] theorem State.respond_cmdlast (r : BusResponse) : (s.respond r).cmdlast = s.cmdlast := rfl
@[simp] theorem State.respond_arg0 (r : BusResponse) : (s.respond r).arg0 = s.arg0 := rfl
@[simp] theorem State.respond_arg1 (r : BusResponse) : (s.respond r).arg1 = s.arg1 := rfl
@[simp] theorem State.respond_arg2 (r : BusResponse) : (s.respond r).arg2 = s.arg2 := rfl
@[simp] theorem State.respond_result (r : BusResponse) : (s.respond r).result = s.result := rfl
@[simp] theorem State.respond_fcmd (r : BusResponse) : (s.respond r).fcmd = s.fcmd := rfl
@[simp] theorem State.respond_lcmd (r : BusResponse) : (s.respond r).lcmd = s.lcmd := rfl
@[simp] theorem State.respond_larg0 (r : BusResponse) : (s.respond r).larg0 = s.larg0 := rfl
@[simp] theorem State.respond_larg1 (r : BusResponse) : (s.respond r).larg1 = s.larg1 := rfl
@[simp] theorem State.respond_larg2 (r : BusResponse) : (s.respond r).larg2 = s.larg2 := rfl
@[simp] theorem State.respond_cwram (r : BusResponse) : (s.respond r).cwram = s.cwram := rfl
@[simp] theorem State.respond_rstN (r : BusResponse) : (s.respond r).rstN = s.rstN := rfl
@[simp] theorem State.respond_response (r : BusResponse) : (s.respond r).response = some r := rfl
@[simp] theorem State.respond_turns (r : BusResponse) : (s.respond r).turns = s.turns := rfl

end Sys2Proof.Machine
end

