-- ==== Sys2Proof/Laws/Step.lean ====
section
/-!
SUPPORT. What a host transaction and a step can do, each said once.
-/

namespace Sys2Proof.Machine

/-- An aligned word access at a register's offset reaches it (20_memory.md R82). -/
@[simp] theorem target_offset (s : State) (r : Register) :
    s.target r.offset .word = .register r := by
  cases r <;> rfl

/-- A register is reached only by an aligned word access at its offset (20_memory.md R82). -/
theorem target_eq_register {s : State} {off : BitVec 14} {n : AccessSize} {r : Register}
    (h : s.target off n = .register r) : off = r.offset ∧ n = .word := by
  unfold State.target at h
  dsimp only at h
  split at h
  · rename_i hlt
    split at h
    · rename_i hn
      refine ⟨?_, hn.1⟩
      obtain ⟨k, hk⟩ : ∃ k, off.toNat = 4 * k := ⟨off.toNat / 4, by omega⟩
      have hk10 : k < 10 := by simp only [Config.registerBytes] at hlt; omega
      rw [hk, Nat.mul_div_cancel_left _ (by decide)] at h
      apply BitVec.eq_of_toNat_eq
      rw [hk]
      clear hk hn hlt
      interval_cases k <;> simp only [registerMap] at h <;> cases h <;> rfl
    · cases h
  · split at h
    · cases h
    · split at h <;> cases h

/-- A performed CWRAM window access: aligned, not Busy, and inside CWRAM (20_memory.md R83). -/
theorem target_eq_cells {s : State} {off : BitVec 14} {n : AccessSize} {a : Nat}
    (h : s.target off n = .cells a) :
    off.toNat = Config.cwramBase + a ∧ a % n.bytes = 0 ∧ a + n.bytes ≤ Config.cwramBytes
      ∧ s.eng ≠ .busy := by
  have hoff : off.toNat < 16384 := off.isLt
  unfold State.target at h
  dsimp only at h
  split at h
  · split at h
    · split at h <;> cases h
    · cases h
  · split at h
    · cases h
    · split at h
      · rename_i hlow hal
        simp only [Target.cells.injEq] at h
        obtain ⟨ha, hb⟩ := hal
        rw [h] at ha
        simp only [Config.cwramBase, Config.cwramBytes] at *
        refine ⟨by omega, ha, ?_, hb⟩
        cases n <;> simp only [AccessSize.bytes] at * <;> omega
      · cases h

/-- A read transaction changes nothing but the response (20_memory.md R89). -/
theorem busRead_eq_next {s t : State} {off : BitVec 14} {n : AccessSize}
    (h : busRead s off n = .next t) : ∃ r, t = s.respond r := by
  unfold busRead at h
  split at h
  · exact ⟨_, by simpa [eq_comm] using h⟩
  · obtain ⟨bs, -, h⟩ := readThen_eq_next.1 h
    exact ⟨_, by simpa [eq_comm] using h⟩
  · exact ⟨_, by simpa [eq_comm] using h⟩

@[simp] theorem length_bytesOf (n : Nat) (w : Word) : (bytesOf n w).length = n := by
  simp [bytesOf]

/-- A write transaction applies a register's write rule, writes CWRAM cells, or answers ERROR
(20_memory.md R82 to R84). -/
theorem busWrite_cases {s t : State} {off : BitVec 14} {n : AccessSize} {w : Word}
    (h : busWrite s off n w = .next t) :
    (∃ r, off = r.offset ∧ n = .word ∧ t = (s.writeRegister r w).respond okayWrite) ∨
      (∃ a, s.eng ≠ .busy ∧ a + n.bytes ≤ Config.cwramBytes ∧
        t = { s with cwram := s.cwram.writeBytes a (bytesOf n.bytes w),
                     response := some okayWrite }) ∨
      t = s.respond errorWrite := by
  unfold busWrite at h
  split at h
  · rename_i r hr
    obtain ⟨ho, hn⟩ := target_eq_register hr
    exact .inl ⟨r, ho, hn, by simpa [eq_comm] using h⟩
  · rename_i a ha
    obtain ⟨-, -, hle, hb⟩ := target_eq_cells ha
    exact .inr (.inl ⟨a, hb, hle, by simpa [eq_comm, State.respond] using h⟩)
  · exact .inr (.inr (by simpa [eq_comm] using h))

/-- A register read (20_memory.md R82). -/
@[simp] theorem busRead_offset (s : State) (r : Register) :
    busRead s r.offset .word = .next (s.respond (okayRead (s.readRegister r))) := by
  unfold busRead
  rw [target_offset]

/-- A register write (20_memory.md R82). -/
@[simp] theorem busWrite_offset (s : State) (r : Register) (w : Word) :
    busWrite s r.offset .word w = .next ((s.writeRegister r w).respond okayWrite) := by
  unfold busWrite
  rw [target_offset]

/-- The write rules of the registers (10_state.md R35, R37, R42, R43, R48). -/
theorem writeRegister_cases (s : State) (r : Register) (w : Word) :
    s.writeRegister r w = s ∨ s.writeRegister r w = s.softReset ∨
      s.writeRegister r w = { s with irqen := w.getLsbD 1 } ∨
      s.writeRegister r w = s.writeStatus w ∨
      (s.eng = .idle ∧ s.writeRegister r w = s.acceptCommand w) ∨
      (s.eng ≠ .idle ∧ s.writeRegister r w = { s with ovr := true }) ∨
      s.writeRegister r w = { s with arg0 := w } ∨ s.writeRegister r w = { s with arg1 := w } ∨
      s.writeRegister r w = { s with arg2 := w } := by
  cases r <;> simp only [State.writeRegister, State.writeCtrl, State.writeCmd] <;>
    first
    | (split <;> simp_all)
    | simp

/-- The four kinds of step (20_memory.md R91): nothing, the engine's command end, a host
transaction, a level of `rst_n`. `s'` is the state without its first turn. -/
theorem step_cases {s t : State} (h : step s = .next t) {s' : State}
    (hs' : s' = { s with turns := s.turns.tail }) :
    ((s.turns.head? = none ∨ s.turns.head? = some .engine) ∧
        ¬ (s.rstN = true ∧ s.eng = .busy) ∧ t = s') ∨
      ((s.turns.head? = none ∨ s.turns.head? = some .engine) ∧ s.rstN = true ∧ s.eng = .busy ∧
        ((∃ i, decode s.lcmd = .ok i ∧ exec i s' = .next t) ∨
          ∃ c, decode s.lcmd = .error c ∧ t = s'.raiseFault c)) ∨
      (∃ tr, s.turns.head? = some (.host tr) ∧ s.rstN = true ∧ hostMove s' tr = .next t) ∨
      (∃ level, s.turns.head? = some (.rst level) ∧ t = s'.setRst level) := by
  have eng : ∀ u : State, u.rstN = s.rstN → u.eng = s.eng → u.lcmd = s.lcmd →
      (match engineMove u with | .run i v => exec i v | .answer o => o) = .next t →
      (¬ (s.rstN = true ∧ s.eng = .busy) ∧ t = u) ∨ (s.rstN = true ∧ s.eng = .busy ∧
        ((∃ i, decode s.lcmd = .ok i ∧ exec i u = .next t) ∨
          ∃ c, decode s.lcmd = .error c ∧ t = u.raiseFault c)) := by
    intro u h1 h2 h3 hu
    unfold engineMove at hu
    rw [h1, h2, h3] at hu
    by_cases hb : s.rstN = true ∧ s.eng = .busy
    · simp only [hb, and_self, if_true] at hu
      refine .inr ⟨hb.1, hb.2, ?_⟩
      cases hd : decode s.lcmd with
      | ok i => rw [hd] at hu; exact .inl ⟨i, rfl, hu⟩
      | error c => rw [hd] at hu; exact .inr ⟨c, rfl, by simpa [eq_comm] using hu⟩
    · rw [if_neg hb] at hu
      exact .inl ⟨hb, by simpa [eq_comm] using hu⟩
  unfold step nextMove at h
  cases hturn : s.turns with
  | nil =>
    rw [hturn] at h
    have hss : s = s' := by rw [hs', hturn, List.tail_nil, ← hturn]
    rcases eng s rfl rfl rfl h with ⟨h1, h2⟩ | ⟨h1, h2, h3⟩
    · exact .inl ⟨.inl rfl, h1, by rw [h2, ← hss]⟩
    · exact .inr (.inl ⟨.inl rfl, h1, h2, by rwa [← hss]⟩)
  | cons head rest =>
    rw [hturn, List.tail_cons] at hs'
    rw [hturn] at h
    subst hs'
    cases head with
    | engine =>
      rcases eng { s with turns := rest } rfl rfl rfl h with ⟨h1, h2⟩ | ⟨h1, h2, h3⟩
      · exact .inl ⟨.inr rfl, h1, h2⟩
      · exact .inr (.inl ⟨.inr rfl, h1, h2, h3⟩)
    | host tr =>
      refine .inr (.inr (.inl ⟨tr, rfl, ?_, h⟩))
      by_contra hr
      simp [hostMove, hr] at h
    | rst level =>
      exact .inr (.inr (.inr ⟨level, rfl, by simpa [eq_comm] using h⟩))

end Sys2Proof.Machine
end

