-- ==== Sys2Proof/Tests/Slice0.lean ====
section
/-!
SUPPORT. The model's own tests: the well-formedness checks, a command word of every row written out
from 30_encoding.md R113, one step for each command with the result 95_test_vectors.md gives, bus
transactions, and for every statement with hypotheses the theorem `witness_<Name>` that shows they can
be met together.
-/

namespace Sys2Proof.Tests

open Sys2Proof Sys2Proof.Machine

set_option Elab.async false

/-! ## Small states -/

/-- An Idle block with operands and CWRAM. -/
def idleWith (a0 a1 a2 : Word) (mem : Memory) : State :=
  { State.reset with arg0 := a0, arg1 := a1, arg2 := a2, cwram := mem }

/-- A block that runs command word `w`. -/
def running (w a0 a1 a2 : Word) (mem : Memory) : State := (idleWith a0 a1 a2 mem).acceptCommand w

/-- A Faulted block. -/
def faulted : State := (running 0 0 0 0 []).raiseFault .illegalOpcode

/-- RESULT and STATUS after one step, as 95_test_vectors.md lists them. -/
def outcome (s : State) : Option (Word × Word) :=
  match step s with
  | .next t => some (t.result, t.statusWord)
  | .fault _ => none
  | .refused _ => none

/-- The `n` bytes from cell `base` after one step. -/
def bytesAfter (s : State) (base n : Nat) : Option (List Byte) :=
  match step s with
  | .next t => (t.cwram.readBytes base n).toOption
  | .fault _ => none
  | .refused _ => none

/-- The response and the state's new value of `f` after a transaction. -/
def afterHost {α : Type} (s : State) (t : Transaction) (f : State → α) :
    Option (Option BusResponse × α) :=
  match hostMove s t with
  | .next u => some (u.response, f u)
  | .fault _ => none
  | .refused _ => none

/-- Cells 0 on, holding `bytes`. -/
def cells (bytes : List Byte) : Memory := Memory.writeBytes [] 0 bytes

/-- The 16 data bytes of vector T1 (95_test_vectors.md). -/
def t1Data : List Byte := [32, 91, 11, 120, 209, 114, 220, 77, 67, 64, 236, 17, 236, 17, 236, 17]

/-! ## Well-formedness: each check refuses an ill-formed command (30_encoding.md R112) -/

theorem test_wellFormed_version_low : (Instr.dcw 0 .L).wellFormed = false := by decide
theorem test_wellFormed_version_high : (Instr.rsenc 41 .H).wellFormed = false := by decide
theorem test_wellFormed_mode : (Instr.ccib 1 3).wellFormed = false := by decide
theorem test_wellFormed_ccib_version : (Instr.ccib 63 2).wellFormed = false := by decide
theorem test_wellFormed_size_low : (Instr.trail 4).wellFormed = false := by decide
theorem test_wellFormed_size_high : (Instr.trail 12).wellFormed = false := by decide
theorem test_wellFormed_edges :
    ((Instr.struct 40 .L).wellFormed && (Instr.groups 1 .M).wellFormed && (Instr.ccib 1 2).wellFormed
      && (Instr.trail 5).wellFormed && (Instr.trail 11).wellFormed) = true := by decide

/-! ## Decoding: words written from the fields of 30_encoding.md R111, R113 -/

theorem test_decode_exp : decode 0b00000000000000000000000000000001 = .ok .exp := by decide
theorem test_decode_log : decode 0b00000000000000000000000000000010 = .ok .log := by decide
theorem test_decode_divide : decode 0b00000000000000000000000000010000 = .ok .divide := by decide
/-- RSENC, version 1 = 000001, M = 01. -/
theorem test_decode_rsenc : decode 0b00000000000000000100000100010001 = .ok (.rsenc 1 .M) := by decide
/-- STRUCT, version 5 = 000101, Q = 10. -/
theorem test_decode_struct : decode 0b00000000000000001000010100010010 = .ok (.struct 5 .Q) := by
  decide
/-- DCW, version 40 = 101000, H = 11. -/
theorem test_decode_dcw : decode 0b00000000000000001110100000100000 = .ok (.dcw 40 .H) := by decide
theorem test_decode_dbits : decode 0b00000000000000000100000100100001 = .ok (.dbits 1 .M) := by decide
/-- CCIB, version 10 = 001010, mode 01 in bits [20:19]. -/
theorem test_decode_ccib : decode 0b00000000000010000000101000100010 = .ok (.ccib 10 1) := by decide
theorem test_decode_groups : decode 0b00000000000000001000010100100011 = .ok (.groups 5 .Q) := by
  decide
theorem test_decode_ect : decode 0b00000000000000000100000100100100 = .ok (.ect 1 .M) := by decide
theorem test_decode_getpoly : decode 0b00000000000000000000000100100101 = .ok (.getpoly 1 .L) := by
  decide
/-- FMTINFO, M = 01 in bits [15:14], mask 101 in bits [18:16]. -/
theorem test_decode_fmtinfo : decode 0b00000000000001010100000000100110 = .ok (.fmtinfo .M 5) := by
  decide
theorem test_decode_pscore : decode 0b00000000000000000000000000110000 = .ok .pscore := by decide
/-- TRAIL, size 0111 in bits [27:24]. -/
theorem test_decode_trail : decode 0b00000111000000000000000000110001 = .ok (.trail 7) := by decide

theorem test_decode_zero : decode 0x00000000 = .error .illegalOpcode := by decide
theorem test_decode_ff : decode 0x000000FF = .error .illegalOpcode := by decide
/-- EXP uses no field. -/
theorem test_decode_exp_version : decode 0x00000101 = .error .reservedBits := by decide
/-- TRAIL with a 1 in bit 28. -/
theorem test_decode_reserved_high : decode 0x17000031 = .error .reservedBits := by decide
/-- DCW with a 1 in bit 23. -/
theorem test_decode_reserved_middle : decode 0x00800120 = .error .reservedBits := by decide
/-- FMTINFO uses no VER. -/
theorem test_decode_fmtinfo_version : decode 0x00000126 = .error .reservedBits := by decide
/-- A bad version still selects its row (30_encoding.md R118). -/
theorem test_decode_bad_version : decode 0x00002920 = .ok (.dcw 41 .L) := by decide
theorem test_decodeTableWord : decodeTableWord 32 0x8523 = some (.groups 5 .Q) := by decide

/-! ## One step for each command (95_test_vectors.md) -/

/-- V-EXP-4. -/
theorem test_exp : outcome (running 0x00000001 8 0 0 []) = some (29, 0x00000002) := by decide
/-- V-EXP-8: 256 is no exponent. -/
theorem test_exp_operand : outcome (running 0x00000001 256 0 0 []) = some (0, 0x00000606) := by decide
/-- V-LOG-4. -/
theorem test_log : outcome (running 0x00000002 29 0 0 []) = some (8, 0x00000002) := by decide
/-- V-LOG-7. -/
theorem test_log_zero : outcome (running 0x00000002 0 0 0 []) = some (0, 0x00000706) := by decide
/-- V-DIV-10, with the message at 0, the generator at 256 and the output at 512. -/
theorem test_divide : bytesAfter (running 0x10 0x00020000 0x00030100 0x00000200
    ((cells [0x12, 0x34]).writeBytes 256 [0, 25, 1])) 512 2 = some [34, 4] := by decide +kernel
/-- A generator of one coefficient has an empty remainder; the message may be empty. -/
theorem test_divide_constant : outcome (running 0x10 0x00000000 0x00010100 0x00000200
    (Memory.writeBytes [] 256 [0])) = some (0, 0x00000002) := by decide +kernel
/-- V-RS-1. -/
theorem test_rsenc : bytesAfter (running 0x00004111 0x00100000 0 0x00000200 (cells t1Data)) 512 10
    = some [196, 35, 39, 119, 235, 215, 231, 226, 93, 23] := by decide +kernel
/-- V-RS-1's RESULT. -/
theorem test_rsenc_result : outcome (running 0x00004111 0x00100000 0 0x00000200 (cells t1Data))
    = some (10, 0x00000002) := by decide +kernel
/-- V-ST-1, from the tenth byte on: the data, then the error codewords (T2). -/
theorem test_struct : bytesAfter (running 0x00004112 0x00100000 0 0x00000200 (cells t1Data)) 522 16
    = some [236, 17, 236, 17, 236, 17, 196, 35, 39, 119, 235, 215, 231, 226, 93, 23] := by
  decide +kernel
/-- V-ST-1's RESULT. -/
theorem test_struct_result : outcome (running 0x00004112 0x00100000 0 0x00000200 (cells t1Data))
    = some (26, 0x00000002) := by decide +kernel
theorem test_dcw : outcome (running 0x00004120 0 0 0 []) = some (16, 0x00000002) := by decide +kernel
theorem test_dcw_version : outcome (running 0x00002920 0 0 0 []) = some (0, 0x00000306) := by decide
theorem test_dbits : outcome (running 0x00004121 0 0 0 []) = some (128, 0x00000002) := by
  decide +kernel
theorem test_ccib : outcome (running 0x00080A22 0 0 0 []) = some (11, 0x00000002) := by decide +kernel
/-- BAD_VERSION comes before BAD_MODE (30_encoding.md R118). -/
theorem test_ccib_order : outcome (running 0x00180022 0 0 0 []) = some (0, 0x00000306) := by decide
theorem test_groups : outcome (running 0x00008523 0 0 0 []) = some (0x10020F02, 0x00000002) := by
  decide +kernel
theorem test_ect : outcome (running 0x00000124 0 0 0 []) = some (7, 0x00000002) := by decide +kernel
/-- V-GP-1. -/
theorem test_getpoly : bytesAfter (running 0x00000125 0 0 0x00000100 []) 256 8
    = some [0, 87, 229, 146, 149, 238, 102, 21] := by decide +kernel
/-- V-FMT-3. -/
theorem test_fmtinfo : outcome (running 0x00054026 0 0 0 []) = some (0x000040CE, 0x00000002) := by
  decide +kernel
/-- V-FMT-5. -/
theorem test_fmtinfo_h : outcome (running 0x0007C026 0 0 0 []) = some (0x0000083B, 0x00000002) := by
  decide +kernel
/-- V-PS-6: 45 lies between 40 and 50, whose nearer penalty is 0. -/
theorem test_pscore : outcome (running 0x00000030 45 0 0 []) = some (0, 0x00000002) := by
  decide +kernel
/-- V-TR-7: a run of exactly five. -/
theorem test_trail : outcome (running 0x07000031 95 0 0 []) = some (3, 0x00000002) := by
  decide +kernel
theorem test_trail_operand : outcome (running 0x07000031 128 0 0 []) = some (0, 0x00000606) := by
  decide
theorem test_illegal_opcode : outcome (running 0x00000000 0 0 0 []) = some (0, 0x00000106) := by decide
/-- RSENC of a cell nothing has written: the model stops (93_implementation_defined.md I3). -/
theorem test_undefined_cell :
    step (running 0x00004111 0x00010000 0 0x00000200 []) = .fault (.undefinedCell 0) := rfl

/-- The word placed for the next step is the word that runs. -/
theorem test_withFetchWord :
    outcome (State.reset.withFetchWord 32 0x00000025) = some (0, 0x00000306) := by decide

/-- The operand word for 16 codewords from cell 0x123 (30_encoding.md R122). -/
theorem test_rangeWord : rangeWord 0x0123 16 = 0x00100123 := by decide

/-! ## Bus transactions (95_test_vectors.md V-IF) -/

/-- V-IF-1. -/
theorem test_bus_id : afterHost State.reset (.read 0x00 .word) State.eng
    = some (some ⟨.okay, some 0x51524331⟩, .idle) := by decide
/-- V-IF-3. -/
theorem test_bus_narrow : afterHost State.reset (.read 0x02 .half) State.eng
    = some (some ⟨.error, some 0⟩, .idle) := by decide
/-- V-IF-5, the write: little-endian. -/
theorem test_bus_little_endian :
    afterHost State.reset (.write 0x2000 .word 0x780B5B20) (fun t => t.cwram.readBytes 0 4 |>.toOption)
      = some (some ⟨.okay, none⟩, some [32, 91, 11, 120]) := by decide
/-- V-IF-8: SRST wins over IRQEN. -/
theorem test_bus_soft_reset : afterHost faulted (.write 0x04 .word 3) (fun t => (t.ctrlWord, t.eng))
    = some (some ⟨.okay, none⟩, 0, .idle) := by decide
/-- V-IF-9: FAULT and FCAUSE stay. -/
theorem test_bus_status : afterHost faulted (.write 0x08 .word 0xFFFFFFFF) State.statusWord
    = some (some ⟨.okay, none⟩, 0x00000104) := by decide
/-- V-IF-10. -/
theorem test_bus_busy : afterHost (running 1 0 0 0 (cells [7])) (.read 0x2000 .byte) State.eng
    = some (some ⟨.error, some 0⟩, .busy) := by decide

/-! ## Witnesses: the hypotheses of each statement can be met together

A statement with several clauses has one witness for each, at a boundary value of its range. -/

theorem witness_EncodeDecodeRoundTrip : decode 0x00008512 = .ok (.struct 5 .Q) := by decide

theorem witness_IllegalOpcodeFaults :
    ∃ (s : State) (rest : List Turn), s.rstN = true ∧ s.eng = .busy ∧
      (s.turns = .engine :: rest ∨ (s.turns = [] ∧ rest = [])) ∧ s.lcmd.toNat % 256 ∉ [0x01, 0x02, 0x10, 0x11, 0x12, 0x20, 0x21, 0x22, 0x23, 0x24, 0x25, 0x26,
        0x30, 0x31] :=
  ⟨{ running 0x00000000 0 0 0 [] with turns := [.engine] }, [], by decide⟩

theorem witness_IllegalOpcodeFaults_noTurn :
    ∃ s : State, s.rstN = true ∧ s.eng = .busy ∧ (s.turns = [] ∧ ([] : List Turn) = []) ∧
      s.lcmd.toNat % 256 ∉ [0x01, 0x02, 0x10, 0x11, 0x12, 0x20, 0x21, 0x22, 0x23, 0x24, 0x25, 0x26,
        0x30, 0x31] :=
  ⟨running 0x000000FF 0 0 0 [], by decide⟩

/-- FMTINFO with only bit 13 set beside its opcode, the bit below its lowest field. -/
theorem witness_ReservedBitsFault :
    ∃ (s : State) (rest : List Turn) (op free : Nat), s.rstN = true ∧ s.eng = .busy ∧
      (s.turns = .engine :: rest ∨ (s.turns = [] ∧ rest = [])) ∧ s.lcmd.toNat % 256 = op ∧
      (op, free) ∈ [(0x01, 0), (0x02, 0), (0x10, 0), (0x11, 0xFF00), (0x12, 0xFF00), (0x20, 0xFF00),
        (0x21, 0xFF00), (0x22, 0x183F00), (0x23, 0xFF00), (0x24, 0xFF00), (0x25, 0xFF00),
        (0x26, 0x7C000), (0x30, 0), (0x31, 0xF000000)] ∧
      ∃ b, 8 ≤ b ∧ b < 32 ∧ s.lcmd.getLsbD b = true ∧ free.testBit b = false :=
  ⟨{ running 0x00002026 0 0 0 [] with turns := [.engine] }, [], 0x26, 0x7C000,
    by decide, by decide, by decide, by decide, by decide, 13, by decide⟩

/-- TRAIL with only bit 28 set beside its opcode, the bit above its field, and no turn left. -/
theorem witness_ReservedBitsFault_noTurn :
    ∃ (s : State) (op free : Nat), s.rstN = true ∧ s.eng = .busy ∧
      (s.turns = [] ∧ ([] : List Turn) = []) ∧ s.lcmd.toNat % 256 = op ∧
      (op, free) ∈ [(0x01, 0), (0x02, 0), (0x10, 0), (0x11, 0xFF00), (0x12, 0xFF00), (0x20, 0xFF00),
        (0x21, 0xFF00), (0x22, 0x183F00), (0x23, 0xFF00), (0x24, 0xFF00), (0x25, 0xFF00),
        (0x26, 0x7C000), (0x30, 0), (0x31, 0xF000000)] ∧
      ∃ b, 8 ≤ b ∧ b < 32 ∧ s.lcmd.getLsbD b = true ∧ free.testBit b = false :=
  ⟨running 0x10000031 0 0 0 [], 0x31, 0xF000000, by decide, by decide, by decide, by decide,
    by decide, 28, by decide⟩

theorem witness_StepRunsDecodedCommand :
    ∃ (s : State) (i : Instr), s.rstN = true ∧ s.eng = .busy ∧ decode s.lcmd = .ok i ∧
      s.turns = [.engine] :=
  ⟨{ running 0x00008523 0 0 0 [] with turns := [.engine] }, .groups 5 .Q, by decide⟩

theorem witness_StepRunsDecodedCommand_noTurn :
    ∃ (s : State) (i : Instr), s.rstN = true ∧ s.eng = .busy ∧ decode s.lcmd = .ok i ∧ s.turns = [] :=
  ⟨running 0x00008523 0 0 0 [], .groups 5 .Q, by decide⟩

theorem witness_StepPerformsNextTurn_host :
    ∃ (s : State) (t : Transaction) (rest : List Turn), s.turns = .host t :: rest :=
  ⟨{ faulted with turns := [.host (.read 0x3FFF .byte)] }, .read 0x3FFF .byte, [], by decide⟩

theorem witness_StepPerformsNextTurn_rst :
    ∃ (s : State) (level : Bool) (rest : List Turn), s.turns = .rst level :: rest :=
  ⟨{ faulted with turns := [.rst false, .rst true] }, false, [.rst true], by decide⟩

theorem witness_StepPerformsNextTurn_engine :
    ∃ (s : State) (rest : List Turn), s.turns = .engine :: rest ∧ s.eng ≠ .busy :=
  ⟨{ faulted with turns := [.engine] }, [], by decide⟩

theorem witness_StepPerformsNextTurn_end : ∃ s : State, s.turns = [] ∧ s.eng ≠ .busy :=
  ⟨faulted, by decide⟩

theorem witness_CommandLifecycle :
    ∃ (i : Instr) (s : State) (rest : List Turn), s.rstN = true ∧ s.eng = .idle ∧
      s.turns = hostCmd i ++ .engine :: rest :=
  ⟨.trail 11, { idleWith 2047 0 0 [] with turns := hostCmd (.trail 11) ++ [.engine] }, [], by decide⟩

/-- A running block meets the invariant. -/
theorem running_inv : (running 0x00000001 8 0 0 [(8191, 7)]).Inv where
  busy_done := by decide
  busy_cmdlast := by decide
  noFault := by decide
  faulted := by decide
  inReset := by decide
  cwram := by decide

theorem witness_StepKeepsInvariant : ∃ s t : State, s.Inv ∧ step s = .next t :=
  ⟨_, _, running_inv, rfl⟩

theorem witness_EngineTransitions_idle : ∃ s t : State, step s = .next t ∧ s.eng = .idle :=
  ⟨{ State.reset with turns := hostCmd .exp }, _, rfl, by decide⟩

theorem witness_EngineTransitions_busy : ∃ s t : State, step s = .next t ∧ s.eng = .busy :=
  ⟨running 0x00000001 8 0 0 [], _, rfl, by decide⟩

theorem witness_EngineTransitions_faulted : ∃ s t : State, step s = .next t ∧ s.eng = .faulted :=
  ⟨{ faulted with turns := hostSrst }, _, rfl, by decide⟩

theorem witness_EveryRunEnds :
    ∃ s t : State, s.Inv ∧ Host.Core.run Sys2Proof.core (s.turns.length + 1) s
      = (.next t : Host.Outcome State Fault Refusal) :=
  ⟨_, _, running_inv, rfl⟩

theorem witness_FaultEntryIsPrecise :
    ∃ (i : Instr) (s t : State), exec i s = .next t ∧ t.eng = .faulted :=
  ⟨.exp, running 0x00000001 256 0 0 [], _, rfl, by decide⟩

/-- GETPOLY of 1-L to cells 256 to 263: cell 264 is outside. -/
theorem witness_CommandFrame :
    ∃ (i : Instr) (s t : State) (a : Nat), exec i s = .next t ∧ (commandDest i s).contains a = false :=
  ⟨.getpoly 1 .L, running 0x00000125 0 0 256 [(264, 9)], _, 264, rfl, by decide +kernel⟩

theorem witness_HostCannotTouchBusyCwram :
    ∃ (s t : State) (tr : Transaction), s.eng = .busy ∧ s.turns.head? = some (.host tr) ∧
      (Turn.host tr).isReset = false ∧ step s = .next t :=
  ⟨{ running 1 8 0 0 [(0, 5)] with turns := [.host (.write 0x2000 .word 7)] }, _,
    .write 0x2000 .word 7, by decide, by decide, by decide, rfl⟩

theorem witness_ResultWrittenOnlyByCompletion :
    ∃ s t : State, step s = .next t ∧ t.result ≠ s.result :=
  ⟨running 1 8 0 0 [], _, rfl, by decide⟩

/-- Two states that differ in cell 1, which the block of one codeword does not use. -/
theorem witness_CommandsDependOnlyOnOperands :
    ∃ (i : Instr) (s₁ s₂ t₁ : State), s₁ ≠ s₂ ∧ s₁.larg0 = s₂.larg0 ∧ s₁.larg1 = s₂.larg1 ∧
      s₁.larg2 = s₂.larg2 ∧
      (∀ r, commandRanges i s₁ = .ok r → ∀ a, (r.source.contains a || r.generator.contains a) = true →
        s₁.cwram.read a = s₂.cwram.read a) ∧
      exec i s₁ = .next t₁ := by
  refine ⟨.rsenc 1 .M, running 0x4111 0x10000 0 512 [(0, 1)], running 0x4111 0x10000 0 512
    [(0, 1), (1, 1)], _, by decide, by decide, by decide, by decide, ?_, rfl⟩
  intro r hr a ha
  have h : commandRanges (.rsenc 1 .M) (running 0x4111 0x10000 0 512 [(0, 1)])
      = .ok ⟨⟨0, 1⟩, Range.empty, ⟨512, 10⟩⟩ := by decide +kernel
  have hr' := Except.ok.inj (hr.symm.trans h)
  subst hr'
  have h0 : a = 0 := by
    simp [Range.contains, Range.empty] at ha
    omega
  subst h0
  decide

theorem witness_SoftResetEffect :
    ∃ (s : State) (w : Word), s.rstN = true ∧ w.getLsbD 0 = true ∧ s.eng ≠ .busy :=
  ⟨faulted, 3, by decide⟩

theorem witness_HardwareReset_engine :
    ∃ (s : State) (rest : List Turn), s.rstN = false ∧ s.turns = .engine :: rest ∧ s.eng ≠ .busy :=
  ⟨{ State.reset with rstN := false, turns := [.engine] }, [], by decide⟩

theorem witness_AbandonedCells :
    ∃ (s : State) (i : Instr), s.eng = .busy ∧ decode s.lcmd = .ok i ∧
      commandRanges i s = .ok ⟨Range.empty, Range.empty, ⟨8184, 8⟩⟩ :=
  ⟨running 0x00000125 0 0 8184 [], .getpoly 1 .L, by decide +kernel⟩

theorem witness_AbandonedCells_illegal :
    ∃ (s : State) (c : Cause), s.eng = .busy ∧ decode s.lcmd = .error c :=
  ⟨running 0 0 0 0 [], .illegalOpcode, by decide⟩

theorem witness_AbandonedCells_divide :
    ∃ (s : State) (r : Ranges), commandRanges .divide s = .ok r :=
  ⟨running 0x10 0x00010000 0x001F0100 8162 [], _, rfl⟩

theorem witness_AbandonedCells_rsenc :
    ∃ (s : State) (ver : BitVec 6) (ecl : Ecl) (r : Ranges), commandRanges (.rsenc ver ecl) s = .ok r :=
  ⟨running 0x111 0x00010000 0 8185 [], 1, .L, ⟨⟨0, 1⟩, Range.empty, ⟨8185, 7⟩⟩, by decide +kernel⟩

theorem witness_AbandonedCells_struct :
    ∃ (s : State) (ver : BitVec 6) (ecl : Ecl) (r : Ranges), commandRanges (.struct ver ecl) s = .ok r :=
  ⟨running 0x4112 0x00100000 0 8166 [], 1, .M, ⟨⟨0, 16⟩, Range.empty, ⟨8166, 26⟩⟩, by decide +kernel⟩

theorem witness_AbandonedCells_faulting :
    ∃ (s : State) (i : Instr) (c : Cause), commandRanges i s = .error c :=
  ⟨running 0x10 0 0 0 [], .divide, .genEmpty, by decide⟩

theorem witness_AbandonedCells_noDest :
    ∃ i : Instr, i ∉ [.divide] ∧ ∀ v e, i ≠ .rsenc v e ∧ i ≠ .struct v e ∧ i ≠ .getpoly v e :=
  ⟨.pscore, by decide, by intro v e; simp⟩

theorem witness_RegisterReads :
    ∃ (s : State) (off : BitVec 14) (v : Word), s.rstN = true ∧
      (off, v) ∈ [(0x00, 0x51524331), (0x04, BitVec.ofNat 32 (if s.irqen then 2 else 0)),
        (0x08, BitVec.ofNat 32 (s.fcause.toNat * 256 + (if s.ovr then 8 else 0) +
          (if s.eng = .faulted then 4 else 0) + (if s.done then 2 else 0) +
          (if s.eng = .busy then 1 else 0))),
        (0x0C, s.cmdlast), (0x10, s.arg0), (0x14, s.arg1), (0x18, s.arg2), (0x1C, s.result),
        (0x20, s.fcmd), (0x24, 0x00002000)] :=
  ⟨faulted, 0x08, 0x00000106, by decide⟩

/-- CTRL, STATUS and the operand registers need only that the block is out of reset. -/
theorem witness_CtrlWrite : faulted.rstN = true := by decide

theorem witness_StatusWrite : (running 1 0 0 0 []).rstN = true := by decide

theorem witness_CmdWrite_accepted : ∃ s : State, s.rstN = true ∧ s.eng = .idle :=
  ⟨State.reset, by decide⟩

theorem witness_CmdWrite_rejected : ∃ s : State, s.rstN = true ∧ s.eng ≠ .idle := ⟨faulted, by decide⟩

theorem witness_ArgAndReadOnlyWrites :
    ∃ (s : State) (off : BitVec 14), s.rstN = true ∧ off ∈ [0x00, 0x1C, 0x20, 0x24] :=
  ⟨running 1 0 0 0 [], 0x24, by decide⟩

theorem witness_RejectedAccesses_narrow :
    ∃ (s : State) (off : BitVec 14) (n : AccessSize), s.rstN = true ∧ off.toNat < 0x28 ∧ n ≠ .word :=
  ⟨State.reset, 0x27, .byte, by decide⟩

theorem witness_RejectedAccesses_misaligned :
    ∃ (s : State) (off : BitVec 14), s.rstN = true ∧ off.toNat < 0x28 ∧ off.toNat % 4 ≠ 0 :=
  ⟨State.reset, 0x27, by decide⟩

theorem witness_RejectedAccesses_unmapped :
    ∃ (s : State) (off₁ off₂ : BitVec 14), s.rstN = true ∧ off₁ = 0x28 ∧ off₂ = 0x1FFF ∧
      (0x28 ≤ off₁.toNat ∧ off₁.toNat < 0x2000) ∧ 0x28 ≤ off₂.toNat ∧ off₂.toNat < 0x2000 :=
  ⟨State.reset, 0x28, 0x1FFF, by decide⟩

theorem witness_WindowReads_defined :
    ∃ (s : State) (off : BitVec 14) (n : AccessSize) (bs : List Byte), s.rstN = true ∧
      0x2000 ≤ off.toNat ∧ (off.toNat - 0x2000) % n.bytes = 0 ∧ s.eng ≠ .busy ∧
      s.cwram.readBytes (off.toNat - 0x2000) n.bytes = .ok bs :=
  ⟨idleWith 0 0 0 [(8190, 1), (8191, 2)], 0x3FFE, .half, [1, 2], by decide⟩

theorem witness_WindowReads_undefined :
    ∃ (s : State) (off : BitVec 14) (n : AccessSize) (a : Nat), s.rstN = true ∧
      0x2000 ≤ off.toNat ∧ (off.toNat - 0x2000) % n.bytes = 0 ∧ s.eng ≠ .busy ∧
      s.cwram.readBytes (off.toNat - 0x2000) n.bytes = .error a :=
  ⟨idleWith 0 0 0 [(0, 1)], 0x2000, .half, 1, by decide⟩

theorem witness_WindowReads_rejected :
    ∃ (s₁ s₂ : State) (off : BitVec 14) (n : AccessSize), s₁.rstN = true ∧ s₂.rstN = true ∧
      0x2000 ≤ off.toNat ∧ (off.toNat - 0x2000) % n.bytes ≠ 0 ∧ s₂.eng = .busy :=
  ⟨State.reset, running 1 0 0 0 [], 0x2001, .half, by decide⟩

theorem witness_WindowWrites_written :
    ∃ (s : State) (off : BitVec 14) (n : AccessSize), s.rstN = true ∧ 0x2000 ≤ off.toNat ∧
      (off.toNat - 0x2000) % n.bytes = 0 ∧ s.eng ≠ .busy :=
  ⟨faulted, 0x3FFC, .word, by decide⟩

theorem witness_WindowWrites_rejected :
    ∃ (s₁ s₂ : State) (off : BitVec 14) (n : AccessSize), s₁.rstN = true ∧ s₂.rstN = true ∧
      0x2000 ≤ off.toNat ∧ (off.toNat - 0x2000) % n.bytes ≠ 0 ∧ s₂.eng = .busy :=
  ⟨State.reset, running 1 0 0 0 [], 0x3FFD, .word, by decide⟩

theorem witness_InterruptLine_end :
    ∃ (i : Instr) (s t : State), exec i s = .next t ∧ s.irqen = true :=
  ⟨.exp, { running 1 8 0 0 [] with irqen := true }, _, rfl, by decide⟩

theorem witness_InterruptLine_enable :
    ∃ (s : State) (w : Word), s.done = true ∧ w.getLsbD 0 = false ∧ w.getLsbD 1 = true :=
  ⟨faulted, 2, by decide⟩

theorem witness_InterruptLine_accept : ∃ s : State, s.eng = .idle ∧ s.irq = true :=
  ⟨{ State.reset with irqen := true, done := true }, by decide⟩

theorem witness_SameClockEvents :
    ∃ (s s₁ s₂ : State) (off : BitVec 14) (w : Word) (rest : List Turn), s.eng = .busy ∧
      s.turns = sameClock (.write off .word w) ++ rest ∧ step s = .next s₁ ∧ step s₁ = .next s₂ ∧
      off = 0x08 :=
  ⟨{ running 1 8 0 0 [] with turns := sameClock (.write 0x08 .word 2) }, _, _, 0x08, 2, [],
    by decide, by decide, rfl, rfl, rfl⟩

theorem witness_SameClockEvents_cmd :
    ∃ (s s₁ s₂ : State) (off : BitVec 14) (w : Word) (rest : List Turn), s.eng = .busy ∧
      s.turns = sameClock (.write off .word w) ++ rest ∧ step s = .next s₁ ∧ step s₁ = .next s₂ ∧
      off = 0x0C :=
  ⟨{ running 1 8 0 0 [] with turns := sameClock (.write 0x0C .word 2) }, _, _, 0x0C, 2, [],
    by decide, by decide, rfl, rfl, rfl⟩

/-- EXP and PSCORE share the bound 255. -/
theorem witness_ExpReadsField :
    ∃ s₁ s₂ : State, s₁.larg0.toNat ≤ 255 ∧ 255 < s₂.larg0.toNat :=
  ⟨running 1 255 0 0 [], running 1 256 0 0 [], by decide⟩

theorem witness_LogReadsExponent :
    ∃ s₁ s₂ s₃ : State, (1 ≤ s₁.larg0.toNat ∧ s₁.larg0.toNat ≤ 255) ∧ 255 < s₂.larg0.toNat ∧
      s₃.larg0.toNat = 0 :=
  ⟨running 2 1 0 0 [], running 2 256 0 0 [], running 2 0 0 0 [], by decide⟩

theorem witness_ExpLogTableLaws :
    ∃ (v : Nat) (b : Byte) (e' : Nat), 1 ≤ v ∧ v ≤ 255 ∧ b ≠ 0 ∧ e' ≤ 254 ∧ expRom e' = b :=
  ⟨255, 142, 254, by decide⟩

/-- The longest generator, and an output that ends where the message begins. -/
theorem witness_DivideWritesRemainder :
    ∃ (s : State) (m g : List Byte), highHalf s.larg2 = 0 ∧ 1 ≤ highHalf s.larg1 ∧
      highHalf s.larg1 ≤ 31 ∧ (1 ≤ highHalf s.larg0 ∨ highHalf s.larg1 = 1) ∧
      lowHalf s.larg0 + highHalf s.larg0 ≤ 8192 ∧ lowHalf s.larg1 + highHalf s.larg1 ≤ 8192 ∧
      lowHalf s.larg2 + (highHalf s.larg1 - 1) ≤ 8192 ∧
      Apart (lowHalf s.larg2) (highHalf s.larg1 - 1) (lowHalf s.larg0) (highHalf s.larg0) ∧
      Apart (lowHalf s.larg2) (highHalf s.larg1 - 1) (lowHalf s.larg1) (highHalf s.larg1) ∧
      s.cwram.readBytes (lowHalf s.larg0) (highHalf s.larg0) = .ok m ∧
      s.cwram.readBytes (lowHalf s.larg1) (highHalf s.larg1) = .ok g := by
  refine ⟨running 0x10 0x00021FFE 0x001F0000 0x00001FE0
    ((cells (List.replicate 31 0)).writeBytes 8190 [1, 2]), [1, 2], List.replicate 31 0, ?_⟩
  unfold Apart
  decide +kernel

theorem witness_DivideFaultOrder_operand : ∃ s : State, highHalf s.larg2 ≠ 0 :=
  ⟨running 0x10 0 0 0x00010000 [], by decide⟩

theorem witness_DivideFaultOrder_empty : ∃ s : State, highHalf s.larg2 = 0 ∧ highHalf s.larg1 = 0 :=
  ⟨running 0x10 0 0x0000FFFF 0x0000FFFF [], by decide⟩

theorem witness_DivideFaultOrder_long : ∃ s : State, highHalf s.larg2 = 0 ∧ 31 < highHalf s.larg1 :=
  ⟨running 0x10 0 0x00200000 0 [], by decide⟩

theorem witness_DivideFaultOrder_message :
    ∃ s : State, highHalf s.larg2 = 0 ∧ 2 ≤ highHalf s.larg1 ∧ highHalf s.larg1 ≤ 31 ∧
      highHalf s.larg0 = 0 :=
  ⟨running 0x10 0 0x00020000 0 [], by decide⟩

/-- The destination of two cells begins at the last cell. -/
theorem witness_DivideFaultOrder_range :
    ∃ s : State, highHalf s.larg2 = 0 ∧ 1 ≤ highHalf s.larg1 ∧ highHalf s.larg1 ≤ 31 ∧
      (1 ≤ highHalf s.larg0 ∨ highHalf s.larg1 = 1) ∧
      (8192 < lowHalf s.larg0 + highHalf s.larg0 ∨ 8192 < lowHalf s.larg1 + highHalf s.larg1 ∨
        8192 < lowHalf s.larg2 + (highHalf s.larg1 - 1)) :=
  ⟨running 0x10 0x00010000 0x00030100 0x00001FFF [], by decide⟩

/-- The last cell of the destination is the first of the message. -/
theorem witness_DivideFaultOrder_overlap :
    ∃ s : State, highHalf s.larg2 = 0 ∧ 1 ≤ highHalf s.larg1 ∧ highHalf s.larg1 ≤ 31 ∧
      1 ≤ highHalf s.larg0 ∧ lowHalf s.larg0 + highHalf s.larg0 ≤ 8192 ∧
      lowHalf s.larg1 + highHalf s.larg1 ≤ 8192 ∧ lowHalf s.larg2 + (highHalf s.larg1 - 1) ≤ 8192 ∧
      (¬ Apart (lowHalf s.larg2) (highHalf s.larg1 - 1) (lowHalf s.larg0) (highHalf s.larg0) ∨
        ¬ Apart (lowHalf s.larg2) (highHalf s.larg1 - 1) (lowHalf s.larg1) (highHalf s.larg1)) := by
  refine ⟨running 0x10 0x00010101 0x00030000 0x00000100 [], ?_⟩
  unfold Apart
  decide

theorem witness_DivideIsPolynomialRemainder :
    ∃ (g : List Byte) (lead : Byte), g.head? = some lead ∧ (lead = 0 ∨ lead = 255) :=
  ⟨[255, 25, 1], 255, by decide⟩

theorem witness_DivideZeroMessage :
    ∃ s : State, highHalf s.larg2 = 0 ∧ 2 ≤ highHalf s.larg1 ∧ highHalf s.larg1 ≤ 31 ∧
      highHalf s.larg0 = 0 :=
  ⟨running 0x10 0 0x001F0000 0 [], by decide⟩

theorem witness_DivideLinear :
    ∃ m m' : List Byte, m.length = m'.length ∧ m ≠ m' := ⟨[1, 0], [0, 1], by decide⟩

theorem witness_GeneratorRoots : ∃ k i : Nat, k ≤ 30 ∧ i < k := ⟨30, 29, by decide⟩

theorem witness_CodewordSyndromesVanish : ∃ k i : Nat, k ≤ 30 ∧ i < k := ⟨1, 0, by decide⟩

theorem witness_RsencEncodesBlock_version :
    ∃ ver ver' : BitVec 6, ¬ (1 ≤ ver.toNat ∧ ver.toNat ≤ 40) ∧ ¬ (1 ≤ ver'.toNat ∧ ver'.toNat ≤ 40) :=
  ⟨0, 41, by decide⟩

theorem witness_RsencEncodesBlock_operand :
    ∃ (ver : BitVec 6) (s : State), 1 ≤ ver.toNat ∧ ver.toNat ≤ 40 ∧ highHalf s.larg2 ≠ 0 :=
  ⟨40, running 0x11 0 0 0x00010000 [], by decide⟩

theorem witness_RsencEncodesBlock_message :
    ∃ (ver : BitVec 6) (s : State), 1 ≤ ver.toNat ∧ ver.toNat ≤ 40 ∧ highHalf s.larg2 = 0 ∧
      highHalf s.larg0 = 0 :=
  ⟨40, running 0x11 0x0000FFFF 0 0 [], by decide⟩

/-- Version 1-L writes 7 codewords: they do not fit from cell 8186. -/
theorem witness_RsencEncodesBlock_range :
    ∃ (ver : BitVec 6) (ecl : Ecl) (s : State) (k : Nat), k = (eccRow ver.toNat ecl).ect ∧
      1 ≤ ver.toNat ∧ ver.toNat ≤ 40 ∧ highHalf s.larg2 = 0 ∧ 1 ≤ highHalf s.larg0 ∧
      (8192 < lowHalf s.larg0 + highHalf s.larg0 ∨ 8192 < lowHalf s.larg2 + k) :=
  ⟨1, .L, running 0x111 0x00010000 0 8186 [], 7, by decide +kernel⟩

theorem witness_RsencEncodesBlock_overlap :
    ∃ (ver : BitVec 6) (ecl : Ecl) (s : State) (k : Nat), k = (eccRow ver.toNat ecl).ect ∧
      1 ≤ ver.toNat ∧ ver.toNat ≤ 40 ∧ highHalf s.larg2 = 0 ∧ 1 ≤ highHalf s.larg0 ∧
      lowHalf s.larg0 + highHalf s.larg0 ≤ 8192 ∧ lowHalf s.larg2 + k ≤ 8192 ∧
      ¬ Apart (lowHalf s.larg2) k (lowHalf s.larg0) (highHalf s.larg0) := by
  refine ⟨1, .L, running 0x111 0x00010006 0 0 [], 7, ?_⟩
  unfold Apart
  decide +kernel

theorem witness_RsencEncodesBlock_written :
    ∃ (ver : BitVec 6) (ecl : Ecl) (s : State) (k : Nat) (m : List Byte),
      k = (eccRow ver.toNat ecl).ect ∧ 1 ≤ ver.toNat ∧ ver.toNat ≤ 40 ∧ highHalf s.larg2 = 0 ∧
      1 ≤ highHalf s.larg0 ∧ lowHalf s.larg0 + highHalf s.larg0 ≤ 8192 ∧ lowHalf s.larg2 + k ≤ 8192 ∧
      Apart (lowHalf s.larg2) k (lowHalf s.larg0) (highHalf s.larg0) ∧
      s.cwram.readBytes (lowHalf s.larg0) (highHalf s.larg0) = .ok m := by
  refine ⟨1, .L, running 0x111 0x00010007 0 0 [(7, 3)], 7, [3], ?_⟩
  unfold Apart
  decide +kernel

theorem witness_RsencEqualsDivide :
    ∃ (ver : BitVec 6) (ecl : Ecl) (s₁ s₂ t₁ : State) (k : Nat), k = (eccRow ver.toNat ecl).ect ∧
      exec (.rsenc ver ecl) s₁ = .next t₁ ∧ t₁.eng = .idle ∧ s₂.larg0 = s₁.larg0 ∧
      s₂.larg2 = s₁.larg2 ∧ highHalf s₂.larg1 = k + 1 ∧ lowHalf s₂.larg1 + (k + 1) ≤ 8192 ∧
      Apart (lowHalf s₂.larg2) k (lowHalf s₂.larg1) (k + 1) ∧
      s₂.cwram.readBytes (lowHalf s₂.larg1) (k + 1) = .ok (genRom k) ∧
      s₂.cwram.readBytes (lowHalf s₂.larg0) (highHalf s₂.larg0) =
        s₁.cwram.readBytes (lowHalf s₁.larg0) (highHalf s₁.larg0) := by
  refine ⟨1, .L, running 0x111 0x00010007 0 0 [(7, 3)],
    running 0x10 0x00010007 0x00080100 0 (Memory.writeBytes [(7, 3)] 256 [0, 87, 229, 146, 149, 238,
      102, 21]), _, 7, by decide +kernel, rfl, by decide +kernel, by decide, by decide, by decide,
    by decide, ?_, by decide +kernel, rfl⟩
  unfold Apart
  decide

theorem witness_StructInterleaves_version :
    ∃ ver : BitVec 6, ¬ (1 ≤ ver.toNat ∧ ver.toNat ≤ 40) := ⟨63, by decide⟩

theorem witness_StructInterleaves_operand :
    ∃ (ver : BitVec 6) (s : State), 1 ≤ ver.toNat ∧ ver.toNat ≤ 40 ∧ highHalf s.larg2 ≠ 0 :=
  ⟨1, running 0x12 0 0 0xFFFF0000 [], by decide⟩

/-- One codeword too many. -/
theorem witness_StructInterleaves_length :
    ∃ (ver : BitVec 6) (ecl : Ecl) (s : State), 1 ≤ ver.toNat ∧ ver.toNat ≤ 40 ∧
      highHalf s.larg2 = 0 ∧ highHalf s.larg0 ≠ (eccRow ver.toNat ecl).dcw :=
  ⟨1, .M, running 0x4112 0x00110000 0 0 [], by decide +kernel⟩

/-- Version 1-M writes 26 codewords: they do not fit from cell 8167. -/
theorem witness_StructInterleaves_range :
    ∃ (ver : BitVec 6) (ecl : Ecl) (s : State) (row : EccRow) (n : Nat), row = eccRow ver.toNat ecl ∧
      n = row.dcw + row.ect * (row.c1 + row.c2) ∧ 1 ≤ ver.toNat ∧ ver.toNat ≤ 40 ∧
      highHalf s.larg2 = 0 ∧ highHalf s.larg0 = row.dcw ∧
      (8192 < lowHalf s.larg0 + row.dcw ∨ 8192 < lowHalf s.larg2 + n) :=
  ⟨1, .M, running 0x4112 0x00100000 0 8167 [], eccRow 1 .M, 26, by decide +kernel⟩

theorem witness_StructInterleaves_overlap :
    ∃ (ver : BitVec 6) (ecl : Ecl) (s : State) (row : EccRow) (n : Nat), row = eccRow ver.toNat ecl ∧
      n = row.dcw + row.ect * (row.c1 + row.c2) ∧ 1 ≤ ver.toNat ∧ ver.toNat ≤ 40 ∧
      highHalf s.larg2 = 0 ∧ highHalf s.larg0 = row.dcw ∧ lowHalf s.larg0 + row.dcw ≤ 8192 ∧
      lowHalf s.larg2 + n ≤ 8192 ∧ ¬ Apart (lowHalf s.larg2) n (lowHalf s.larg0) row.dcw := by
  refine ⟨1, .M, running 0x4112 0x00100000 0 15 [], eccRow 1 .M, 26, ?_⟩
  unfold Apart
  decide +kernel

theorem witness_StructInterleaves_written :
    ∃ (ver : BitVec 6) (ecl : Ecl) (s : State) (row : EccRow) (n : Nat) (d : List Byte),
      row = eccRow ver.toNat ecl ∧ n = row.dcw + row.ect * (row.c1 + row.c2) ∧ 1 ≤ ver.toNat ∧
      ver.toNat ≤ 40 ∧ highHalf s.larg2 = 0 ∧ highHalf s.larg0 = row.dcw ∧
      lowHalf s.larg0 + row.dcw ≤ 8192 ∧ lowHalf s.larg2 + n ≤ 8192 ∧
      Apart (lowHalf s.larg2) n (lowHalf s.larg0) row.dcw ∧
      s.cwram.readBytes (lowHalf s.larg0) row.dcw = .ok d := by
  refine ⟨1, .M, running 0x4112 0x00100000 0 16 (cells t1Data), eccRow 1 .M, 26, t1Data, ?_⟩
  unfold Apart
  decide +kernel

/-- Version 5-Q, which has both groups: its last group-2 block and its last codewords. -/
theorem witness_InterleavePositions :
    ∃ (v : Nat) (e : Ecl) (row : EccRow) (d : List Byte) (b i j : Nat), 1 ≤ v ∧ v ≤ 40 ∧
      row = eccRow v e ∧ d.length = row.dcw ∧ (row.c1 ≤ b ∧ b < row.c1 + row.c2) ∧ i < row.s1 ∧
      j < row.ect :=
  ⟨5, .Q, eccRow 5 .Q, List.replicate 62 1, 3, 14, 17, by decide +kernel⟩

theorem witness_StructOutputLength :
    ∃ (v : Nat) (e : Ecl) (row : EccRow) (d : List Byte), 1 ≤ v ∧ v ≤ 40 ∧ row = eccRow v e ∧
      d.length = row.dcw :=
  ⟨40, .H, eccRow 40 .H, List.replicate (eccRow 40 .H).dcw 1, by decide, by decide, rfl,
    List.length_replicate⟩

theorem witness_StructOutputLength_result :
    ∃ (ver : BitVec 6) (e : Ecl) (row : EccRow) (s t : State), row = eccRow ver.toNat e ∧
      exec (.struct ver e) s = .next t ∧ t.eng = .idle :=
  ⟨1, .M, eccRow 1 .M, running 0x4112 0x00100000 0 16 (cells t1Data), _, by decide +kernel, rfl,
    by decide +kernel⟩

theorem witness_StructFitsInCwram :
    ∃ (ver : BitVec 6) (ecl : Ecl) (s : State) (row : EccRow) (d : List Byte), 1 ≤ ver.toNat ∧
      ver.toNat ≤ 40 ∧ row = eccRow ver.toNat ecl ∧ s.larg0 = BitVec.ofNat 32 (row.dcw * 65536) ∧
      s.larg2 = 2956 ∧ s.cwram.readBytes 0 row.dcw = .ok d :=
  ⟨1, .M, running 0x4112 0x00100000 0 2956 (cells t1Data), eccRow 1 .M, t1Data, by decide +kernel⟩

/-- The version commands share the bounds 1 and 40, and BAD_VERSION at 0 and 41. -/
theorem witness_DcwReadsTable :
    ∃ v₁ v₂ v₃ v₄ : BitVec 6, (1 ≤ v₁.toNat ∧ v₁.toNat ≤ 40) ∧ (1 ≤ v₂.toNat ∧ v₂.toNat ≤ 40) ∧
      ¬ (1 ≤ v₃.toNat ∧ v₃.toNat ≤ 40) ∧ ¬ (1 ≤ v₄.toNat ∧ v₄.toNat ≤ 40) :=
  ⟨1, 40, 0, 41, by decide⟩

theorem witness_DbitsReadsTable :
    ∃ v₁ v₂ : BitVec 6, (1 ≤ v₁.toNat ∧ v₁.toNat ≤ 40) ∧ ¬ (1 ≤ v₂.toNat ∧ v₂.toNat ≤ 40) :=
  ⟨40, 41, by decide⟩

theorem witness_CcibReadsWidth :
    ∃ (v : BitVec 6) (mode : BitVec 2) (w1 w2 w3 : Nat), 1 ≤ v.toNat ∧ v.toNat ≤ 40 ∧
      (mode, w1, w2, w3) ∈ [(0, 10, 12, 14), (1, 9, 11, 13), (2, 8, 16, 16)] :=
  ⟨27, 2, 8, 16, 16, by decide⟩

theorem witness_CcibReadsWidth_faults :
    ∃ v₁ v₂ : BitVec 6, (1 ≤ v₁.toNat ∧ v₁.toNat ≤ 40) ∧ ¬ (1 ≤ v₂.toNat ∧ v₂.toNat ≤ 40) :=
  ⟨1, 0, by decide⟩

theorem witness_GroupsPacksLayout :
    ∃ (v₁ v₂ : BitVec 6) (row : EccRow), (1 ≤ v₁.toNat ∧ v₁.toNat ≤ 40) ∧ row = eccRow v₁.toNat .L ∧
      ¬ (1 ≤ v₂.toNat ∧ v₂.toNat ≤ 40) :=
  ⟨40, 63, eccRow 40 .L, by decide +kernel⟩

theorem witness_EctReadsTable :
    ∃ v₁ v₂ : BitVec 6, (1 ≤ v₁.toNat ∧ v₁.toNat ≤ 40) ∧ ¬ (1 ≤ v₂.toNat ∧ v₂.toNat ≤ 40) :=
  ⟨1, 0, by decide⟩

theorem witness_EccTableInvariants :
    ∃ v e, 1 ≤ v ∧ v ≤ 40 ∧ 0 < (eccRow v e).c2 := ⟨5, .Q, by decide +kernel⟩

theorem witness_EccTableInvariants_absent :
    ∃ v e, 1 ≤ v ∧ v ≤ 40 ∧ (eccRow v e).c2 = 0 := ⟨1, .L, by decide +kernel⟩

theorem witness_GetpolyWritesGenerator_version :
    ∃ v : BitVec 6, ¬ (1 ≤ v.toNat ∧ v.toNat ≤ 40) := ⟨41, by decide⟩

theorem witness_GetpolyWritesGenerator_operand :
    ∃ (v : BitVec 6) (s : State), 1 ≤ v.toNat ∧ v.toNat ≤ 40 ∧ highHalf s.larg2 ≠ 0 :=
  ⟨1, running 0x125 0 0 0x00010000 [], by decide⟩

/-- Version 1-L writes 8 exponents: they fit from cell 8184, not from 8185. -/
theorem witness_GetpolyWritesGenerator_range :
    ∃ (v : BitVec 6) (ecl : Ecl) (s₁ s₂ : State) (k : Nat), k = (eccRow v.toNat ecl).ect ∧
      1 ≤ v.toNat ∧ v.toNat ≤ 40 ∧
      (highHalf s₁.larg2 = 0 ∧ lowHalf s₁.larg2 + k + 1 ≤ 8192) ∧
      highHalf s₂.larg2 = 0 ∧ 8192 < lowHalf s₂.larg2 + k + 1 :=
  ⟨1, .L, running 0x125 0 0 8184 [], running 0x125 0 0 8185 [], 7, by decide +kernel⟩

theorem witness_FmtinfoReadsWord : ∃ m : Nat, m < 8 := ⟨7, by decide⟩

theorem witness_FormatWordConstruction :
    ∃ (e e' : Ecl) (m m' : Nat), m < 8 ∧ m' < 8 ∧ (e, m) ≠ (e', m') := ⟨.L, .L, 0, 7, by decide⟩

theorem witness_PscoreReadsPenalty :
    ∃ (s₁ s₂ : State) (p : Nat), s₁.larg0.toNat ≤ 255 ∧ 255 < s₂.larg0.toNat ∧ 101 ≤ p ∧ p ≤ 255 :=
  ⟨running 0x30 255 0 0 [], running 0x30 256 0 0 [], 101, by decide⟩

theorem witness_PenaltyTableRules : ∃ p q : Nat, p ≤ 100 ∧ 101 ≤ q ∧ q ≤ 255 := ⟨100, 101, by decide⟩

theorem witness_TrailScoresRun :
    ∃ (size : BitVec 4) (s₁ s₂ : State), 5 ≤ size.toNat ∧ size.toNat ≤ 11 ∧
      s₁.larg0.toNat < 2 ^ size.toNat ∧ 2 ^ size.toNat ≤ s₂.larg0.toNat :=
  ⟨11, running 0x0B000031 2047 0 0 [], running 0x0B000031 2048 0 0 [], by decide⟩

theorem witness_TrailScoresRun_size :
    ∃ size size' : BitVec 4, ¬ (5 ≤ size.toNat ∧ size.toNat ≤ 11) ∧
      ¬ (5 ≤ size'.toNat ∧ size'.toNat ≤ 11) :=
  ⟨4, 12, by decide⟩

theorem witness_TrailTableLaws :
    ∃ s idx : Nat, 5 ≤ s ∧ s ≤ 11 ∧ idx < 2 ^ (s - 4) := ⟨11, 127, by decide⟩

end Sys2Proof.Tests
end

section
/-!
PROOFS. The state family (10_state.md): what a command writes, what a transaction and a step can do to
the engine, to RESULT and to the invariant, and the statements that follow.
-/

namespace Sys2Proof.Machine

/-! ## The lengths of what a command writes -/

/-- A property of the 160 rows and of the absent row holds of every row a command can select. -/
theorem eccRow_of_forall {P : EccRow → Prop} (hrows : ∀ row ∈ eccTable, P row)
    (habsent : P EccRow.absent) (v : Nat) (e : Ecl) : P (eccRow v e) := by
  unfold eccRow
  rw [List.getD_eq_getElem?_getD]
  cases h : eccTable[(v - 1) * 4 + e.code.toNat]? with
  | none => exact habsent
  | some row => exact hrows row (List.mem_of_getElem? h)

theorem eccRow_ect_le (v : Nat) (e : Ecl) : (eccRow v e).ect ≤ 30 :=
  eccRow_of_forall (P := fun row => row.ect ≤ 30) (by decide +kernel) (by decide) v e

/-- The blocks of both groups hold exactly the data codewords (41_tables.md R177). -/
theorem eccRow_dcw_eq (v : Nat) (e : Ecl) :
    (eccRow v e).dcw = (eccRow v e).s1 * (eccRow v e).c1 + (eccRow v e).s2 * (eccRow v e).c2 :=
  eccRow_of_forall (P := fun row => row.dcw = row.s1 * row.c1 + row.s2 * row.c2)
    (by decide +kernel) (by decide) v e

/-- Slot k holds k + 1 exponents (41_tables.md R183). -/
theorem length_genRom {k : Nat} (hk : k ≤ 30) : (genRom k).length = k + 1 := by
  have slots : ∀ k ≤ 30, (genTable.getD k []).length = k + 1 := by decide
  rw [genRom, List.length_map, slots k hk]

@[simp] theorem length_dataBlocks (row : EccRow) (d : List Byte) :
    (dataBlocks row d).length = row.blocks := by
  simp [dataBlocks]

/-- Counting the positions below `n` that lie below `s`, each for `c` entries. -/
theorem sum_range_map_ite_lt (n s c : Nat) :
    ((List.range n).map fun i => if i < s then c else 0).sum = min n s * c := by
  induction n with
  | zero => simp
  | succ n ih =>
    rw [List.range_succ, List.map_append, List.sum_append, ih]
    by_cases hn : n < s
    · simp [hn, show min n s = n by omega, Nat.succ_mul]
    · simp [hn, show min n s = s by omega, show min (n + 1) s = s by omega]

theorem length_interleaveData (row : EccRow) {blocks : List (List Byte)}
    (h : blocks.length = row.blocks) :
    (interleaveData row blocks).length = row.s1 * row.c1 + row.s2 * row.c2 := by
  have hgroups : min row.c1 blocks.length = row.c1 ∧ blocks.length - row.c1 = row.c2 := by
    rw [h, EccRow.blocks]; omega
  have position : ∀ i, ((if i < row.s1 then (blocks.take row.c1).map (fun b => b.getD i 0) else [])
      ++ (if i < row.s2 then (blocks.drop row.c1).map (fun b => b.getD i 0) else [])).length
        = (if i < row.s1 then row.c1 else 0) + (if i < row.s2 then row.c2 else 0) := by
    intro i
    rw [List.length_append]
    congr 1 <;> split <;> simp [hgroups]
  simp only [interleaveData, List.length_flatMap, position, List.sum_map_add, sum_range_map_ite_lt]
  rw [show min (max row.s1 row.s2) row.s1 = row.s1 by omega,
    show min (max row.s1 row.s2) row.s2 = row.s2 by omega]

@[simp] theorem length_interleaveErrors (k : Nat) (remainders : List (List Byte)) :
    (interleaveErrors k remainders).length = k * remainders.length := by
  simp [interleaveErrors, List.length_flatMap]

/-- STRUCT's output has the length of its destination (42_structurer.md R214). -/
theorem length_structured (v : Nat) (e : Ecl) (d : List Byte) :
    (structured (eccRow v e) d).length = (eccRow v e).total := by
  rw [structured, List.length_append, length_interleaveData _ (length_dataBlocks _ _),
    length_interleaveErrors, List.length_map, length_dataBlocks, ← eccRow_dcw_eq, EccRow.total]

/-! ## The ranges of a command that passed its checks -/

theorem divideRanges_eq_ok {s : State} {r : Ranges} (h : divideRanges s = .ok r) :
    r = ⟨s.sourceRange, s.generatorRange, ⟨s.destAddr, s.generatorRange.len - 1⟩⟩ := by
  unfold divideRanges at h
  split_ifs at h
  exact (checkedRanges_eq_ok.1 h).1

theorem rsencRanges_eq_ok {ver : BitVec 6} {ecl : Ecl} {s : State} {r : Ranges}
    (h : rsencRanges ver ecl s = .ok r) :
    r = ⟨s.sourceRange, Range.empty, ⟨s.destAddr, (eccRow ver.toNat ecl).ect⟩⟩ := by
  unfold rsencRanges at h
  split at h
  · cases h
  · rename_i row hrow
    obtain ⟨-, rfl⟩ := checkedRow_eq_ok.1 hrow
    split_ifs at h
    exact (checkedRanges_eq_ok.1 h).1

theorem structRanges_eq_ok {ver : BitVec 6} {ecl : Ecl} {s : State} {r : Ranges}
    (h : structRanges ver ecl s = .ok r) :
    r = ⟨s.sourceRange, Range.empty, ⟨s.destAddr, (eccRow ver.toNat ecl).total⟩⟩ := by
  unfold structRanges at h
  split at h
  · cases h
  · rename_i row hrow
    obtain ⟨-, rfl⟩ := checkedRow_eq_ok.1 hrow
    split_ifs at h
    exact (checkedRanges_eq_ok.1 h).1

theorem getpolyRanges_eq_ok {ver : BitVec 6} {ecl : Ecl} {s : State} {r : Ranges}
    (h : getpolyRanges ver ecl s = .ok r) :
    r = ⟨Range.empty, Range.empty, ⟨s.destAddr, (eccRow ver.toNat ecl).ect + 1⟩⟩ := by
  unfold getpolyRanges at h
  split at h
  · cases h
  · rename_i row hrow
    obtain ⟨-, rfl⟩ := checkedRow_eq_ok.1 hrow
    split_ifs at h
    exact (checkedRanges_eq_ok.1 h).1

/-! ## What a command does to CWRAM -/

/-- The destination of a command is in bounds, the empty one of a faulting command too. -/
theorem commandDest_inBounds (i : Instr) (s : State) :
    (commandDest i s).base + (commandDest i s).len ≤ Config.cwramBytes := by
  unfold commandDest
  split
  · rename_i r hr
    exact commandRanges_dest_inBounds hr
  · simp [Range.empty]

theorem commandDest_of_ok {i : Instr} {s : State} {r : Ranges} (h : commandRanges i s = .ok r) :
    commandDest i s = r.dest := by
  rw [commandDest, h]

theorem finish_cwram {s t : State} {r : Except Cause Word} (h : finish s r = .next t) :
    t.cwram = s.cwram := by
  obtain ⟨c, -, rfl⟩ | ⟨w, -, rfl⟩ := finish_eq_next.1 h <;> rfl

/-- `t` has the CWRAM of `s`, but for bytes that fill the destination of the command `i`. -/
def WritesDest (i : Instr) (s t : State) : Prop :=
  t.cwram = s.cwram ∨
    ∃ bs : List Byte, bs.length = (commandDest i s).len ∧
      t.cwram = s.cwram.writeBytes (commandDest i s).base bs

theorem WritesDest.completeWrite {i : Instr} {s : State} {r : Ranges}
    (hr : commandRanges i s = .ok r) {bs : List Byte} (hlen : bs.length = r.dest.len) (w : Word) :
    WritesDest i s (s.completeWrite r.dest.base bs w) :=
  .inr ⟨bs, by rw [commandDest_of_ok hr, hlen], by rw [commandDest_of_ok hr]; rfl⟩

/-- A command that uses CWRAM writes its destination when its continuation does. -/
theorem WritesDest.withRanges {i : Instr} {s t : State} {k : Ranges → Answer}
    (h : withRanges s (commandRanges i s) k = .next t)
    (hk : ∀ r, commandRanges i s = .ok r → k r = .next t → WritesDest i s t) :
    WritesDest i s t := by
  obtain ⟨c, -, rfl⟩ | ⟨r, hr, h⟩ := withRanges_eq_next.1 h
  · exact .inl rfl
  · exact hk r hr h

theorem execDivide_writesDest {s t : State} (h : execDivide s = .next t) :
    WritesDest .divide s t := by
  refine WritesDest.withRanges h fun r hr h => ?_
  obtain ⟨g, hg, h⟩ := readThen_eq_next.1 h
  obtain ⟨m, -, h⟩ := readThen_eq_next.1 h
  obtain ⟨hglen, -⟩ := Memory.readBytes_eq_ok.1 hg
  cases h
  refine .completeWrite hr ?_ _
  rw [length_div, hglen, divideRanges_eq_ok hr]

theorem execRsenc_writesDest {ver : BitVec 6} {ecl : Ecl} {s t : State}
    (h : execRsenc ver ecl s = .next t) : WritesDest (.rsenc ver ecl) s t := by
  refine WritesDest.withRanges h fun r hr h => ?_
  obtain ⟨m, -, h⟩ := readThen_eq_next.1 h
  cases h
  refine .completeWrite hr ?_ _
  rw [length_div, rsencRanges_eq_ok hr, length_genRom (eccRow_ect_le _ _), Nat.add_sub_cancel]

theorem execStruct_writesDest {ver : BitVec 6} {ecl : Ecl} {s t : State}
    (h : execStruct ver ecl s = .next t) : WritesDest (.struct ver ecl) s t := by
  refine WritesDest.withRanges h fun r hr h => ?_
  obtain ⟨d, -, h⟩ := readThen_eq_next.1 h
  cases h
  refine .completeWrite hr ?_ _
  rw [length_structured, structRanges_eq_ok hr]

theorem execGetpoly_writesDest {ver : BitVec 6} {ecl : Ecl} {s t : State}
    (h : execGetpoly ver ecl s = .next t) : WritesDest (.getpoly ver ecl) s t := by
  refine WritesDest.withRanges h fun r hr h => ?_
  cases h
  refine .completeWrite hr ?_ _
  rw [getpolyRanges_eq_ok hr, Nat.add_sub_cancel, length_genRom (eccRow_ect_le _ _)]

/-- Every command writes its destination range or no cell at all (70_reset_and_hazards.md R313). -/
theorem exec_writesDest {i : Instr} {s t : State} (h : exec i s = .next t) : WritesDest i s t := by
  cases i
  case divide => exact execDivide_writesDest h
  case rsenc => exact execRsenc_writesDest h
  case struct => exact execStruct_writesDest h
  case getpoly => exact execGetpoly_writesDest h
  case fmtinfo => exact .inl (finish_cwram (r := .ok _) h)
  all_goals exact .inl (finish_cwram h)

theorem WritesDest.wf {i : Instr} {s t : State} (h : WritesDest i s t) (hs : s.cwram.wf) :
    t.cwram.wf := by
  obtain heq | ⟨bs, hlen, heq⟩ := h
  · rwa [heq]
  · rw [heq]
    exact Memory.wf_writeBytes hs bs (hlen ▸ commandDest_inBounds i s)

theorem WritesDest.read_of_outside {i : Instr} {s t : State} (h : WritesDest i s t) {a : Nat}
    (ha : (commandDest i s).contains a = false) : t.cwram.read a = s.cwram.read a := by
  obtain heq | ⟨bs, hlen, heq⟩ := h
  · rw [heq]
  · have hout : ¬ ((commandDest i s).base ≤ a ∧
        a < (commandDest i s).base + (commandDest i s).len) := by
      rw [← Range.contains_iff, ha]; decide
    rw [heq]
    exact Memory.read_writeBytes_of_outside _ _ (by omega)

/-! ## What a host transaction can do -/

/-- A host transaction reads, applies a register's write rule, writes CWRAM cells, or answers ERROR
(20_memory.md R82 to R84). -/
theorem hostMove_cases {s t : State} {tr : Transaction} (h : hostMove s tr = .next t) :
    (∃ r, t = s.respond r) ∨
      (∃ r w, tr = .write (Register.offset r) .word w ∧
        t = (s.writeRegister r w).respond okayWrite) ∨
      ∃ a bs, s.eng ≠ .busy ∧ a + bs.length ≤ Config.cwramBytes ∧
        t = { s with cwram := s.cwram.writeBytes a bs, response := some okayWrite } := by
  unfold hostMove at h
  split at h
  · cases tr with
    | read off n => exact .inl (busRead_eq_next h)
    | write off n w =>
      obtain ⟨r, rfl, rfl, ht⟩ | ⟨a, hb, ha, ht⟩ | ht := busWrite_cases h
      · exact .inr (.inl ⟨r, w, rfl, ht⟩)
      · exact .inr (.inr ⟨a, _, hb, by rwa [length_bytesOf], ht⟩)
      · exact .inl ⟨_, ht⟩
  · cases h

/-! ## The invariant -/

theorem causeCode_range (c : Cause) : 1 ≤ (causeCode c).toNat ∧ (causeCode c).toNat ≤ 13 := by
  cases c <;> decide

namespace State.Inv

variable {s : State}

theorem withTurns (h : s.Inv) (ts : List Turn) : State.Inv { s with turns := ts } := { h with }

theorem respond (h : s.Inv) (r : BusResponse) : (s.respond r).Inv := { h with }

theorem withCwram (h : s.Inv) {m : Memory} (hm : m.wf) : State.Inv { s with cwram := m } :=
  { h with cwram := hm }

theorem writeStatus (h : s.Inv) (w : Word) : (s.writeStatus w).Inv :=
  { h with busy_done := fun hb => by simp [h.busy_done hb] }

/-- An acceptance needs the block out of reset (10_state.md R42). -/
theorem acceptCommand (h : s.Inv) (hidle : s.eng = .idle) (hrst : s.rstN = true) (w : Word) :
    (s.acceptCommand w).Inv where
  busy_done _ := rfl
  busy_cmdlast _ := rfl
  noFault _ := h.noFault (by simp [hidle])
  faulted hf := by cases hf
  inReset hr := by simp [hrst] at hr
  cwram := h.cwram

theorem abandonedCwram (h : s.Inv) : s.abandonedCwram.wf := by
  unfold State.abandonedCwram
  split
  · exact Memory.wf_erase h.cwram _ _
  · exact h.cwram

theorem resetRegisters (h : s.Inv) : s.resetRegisters.Inv where
  busy_done _ := rfl
  busy_cmdlast hb := by cases hb
  noFault _ := ⟨rfl, rfl⟩
  faulted hf := by cases hf
  inReset _ := rfl
  cwram := h.abandonedCwram

theorem setRst (h : s.Inv) (level : Bool) : (s.setRst level).Inv := by
  cases level with
  | false => exact { h.resetRegisters with inReset := fun _ => rfl }
  | true => exact { h with inReset := fun hr => by cases hr }

theorem raiseFault (h : s.Inv) (hbusy : s.eng = .busy) (hrst : s.rstN = true) (c : Cause) :
    (s.raiseFault c).Inv where
  busy_done hb := by cases hb
  busy_cmdlast hb := by cases hb
  noFault hf := absurd rfl hf
  faulted _ := ⟨(causeCode_range c).1, (causeCode_range c).2, (h.busy_cmdlast hbusy).symm⟩
  inReset hr := by simp [hrst] at hr
  cwram := h.cwram

/-- `completeWrite` of no byte is `complete`, so this is the end of every command without fault. -/
theorem completeWrite (h : s.Inv) (hbusy : s.eng = .busy) {base : Nat} {bs : List Byte}
    (hwf : (s.cwram.writeBytes base bs).wf) (w : Word) : (s.completeWrite base bs w).Inv where
  busy_done hb := by cases hb
  busy_cmdlast hb := by cases hb
  noFault _ := h.noFault (by simp [hbusy])
  faulted hf := by cases hf
  inReset _ := rfl
  cwram := hwf

theorem exec (h : s.Inv) (hbusy : s.eng = .busy) (hrst : s.rstN = true) {i : Instr} {t : State}
    (ht : exec i s = .next t) : t.Inv := by
  have hwf : t.cwram.wf := (exec_writesDest ht).wf h.cwram
  obtain ⟨c, rfl⟩ | ⟨w, rfl⟩ | ⟨r, bs, w, -, rfl⟩ := exec_cases ht
  · exact h.raiseFault hbusy hrst c
  · exact h.completeWrite hbusy (base := 0) (bs := []) hwf w
  · exact h.completeWrite hbusy hwf w

theorem writeRegister (h : s.Inv) (hrst : s.rstN = true) (r : Register) (w : Word) :
    (s.writeRegister r w).Inv := by
  obtain heq | heq | heq | heq | ⟨hidle, heq⟩ | ⟨-, heq⟩ | heq | heq | heq :=
    writeRegister_cases s r w <;> rw [heq]
  · exact h
  · exact h.resetRegisters
  · exact { h with }
  · exact h.writeStatus w
  · exact h.acceptCommand hidle hrst w
  all_goals exact { h with }

theorem hostMove (h : s.Inv) (hrst : s.rstN = true) {tr : Transaction} {t : State}
    (ht : hostMove s tr = .next t) : t.Inv := by
  obtain ⟨r, rfl⟩ | ⟨r, w, -, rfl⟩ | ⟨a, bs, -, ha, rfl⟩ := hostMove_cases ht
  · exact h.respond r
  · exact (h.writeRegister hrst r w).respond okayWrite
  · exact (h.withCwram (Memory.wf_writeBytes h.cwram bs ha)).respond okayWrite

end State.Inv

end Sys2Proof.Machine

open Sys2Proof Sys2Proof.Machine

/-- Settles O11: each of the four kinds of step keeps the invariant. -/
theorem stepKeepsInvariant : Obligations.StepKeepsInvariant := by
  intro s t hinv hstep
  have hs' : State.Inv { s with turns := s.turns.tail } := hinv.withTurns _
  obtain ⟨-, -, rfl⟩ | ⟨-, hrst, hbusy, ⟨i, -, hexec⟩ | ⟨c, -, rfl⟩⟩ | ⟨tr, -, hrst, hhost⟩ |
    ⟨level, -, rfl⟩ := step_cases hstep rfl
  · exact hs'
  · exact hs'.exec hbusy hrst hexec
  · exact hs'.raiseFault hbusy hrst c
  · exact hs'.hostMove hrst hhost
  · exact hs'.setRst level

end

section
/-!
PROOFS. The engine's state machine (10_state.md R52), and where RESULT comes from (R44).
-/

namespace Sys2Proof.Machine

/-! ## What a command leaves -/

theorem exec_done {i : Instr} {s t : State} (h : exec i s = .next t) : t.done = true := by
  obtain ⟨c, rfl⟩ | ⟨w, rfl⟩ | ⟨r, bs, w, -, rfl⟩ := exec_cases h <;> rfl

theorem exec_irqen {i : Instr} {s t : State} (h : exec i s = .next t) : t.irqen = s.irqen := by
  obtain ⟨c, rfl⟩ | ⟨w, rfl⟩ | ⟨r, bs, w, -, rfl⟩ := exec_cases h <;> rfl

/-- A command ends Idle, or Faulted with the RESULT of the command before it. -/
theorem exec_eng {i : Instr} {s t : State} (h : exec i s = .next t) :
    t.eng = .idle ∨ (t.eng = .faulted ∧ t.result = s.result) := by
  obtain ⟨c, rfl⟩ | ⟨w, rfl⟩ | ⟨r, bs, w, -, rfl⟩ := exec_cases h
  · exact .inr ⟨rfl, rfl⟩
  · exact .inl rfl
  · exact .inl rfl

/-! ## The write rules of CTRL and CMD, case by case (10_state.md R35, R42) -/

theorem writeRegister_ctrl_of_srst (s : State) {w : Word} (h : w.getLsbD 0 = true) :
    s.writeRegister .ctrl w = s.softReset :=
  if_pos h

theorem writeRegister_ctrl_of_no_srst (s : State) {w : Word} (h : ¬ w.getLsbD 0 = true) :
    s.writeRegister .ctrl w = { s with irqen := w.getLsbD 1 } :=
  if_neg h

theorem writeRegister_cmd_of_idle {s : State} (h : s.eng = .idle) (w : Word) :
    s.writeRegister .cmd w = s.acceptCommand w :=
  if_pos h

theorem writeRegister_cmd_of_not_idle {s : State} (h : s.eng ≠ .idle) (w : Word) :
    s.writeRegister .cmd w = { s with ovr := true } :=
  if_neg h

/-! ## The four moves of the engine -/

/-- ENG and RESULT stay. -/
def Stays (s t : State) : Prop := t.eng = s.eng ∧ t.result = s.result

/-- An Idle engine takes a command; RESULT stays. -/
def Accepts (s t : State) : Prop := s.eng = .idle ∧ t.eng = .busy ∧ t.result = s.result

/-- A Busy engine ends its command; only an end without fault writes RESULT. -/
def Ends (s t : State) : Prop :=
  s.eng = .busy ∧ t.done = true ∧ (t.eng = .idle ∨ (t.eng = .faulted ∧ t.result = s.result))

/-- ENG and RESULT take their reset values. -/
def Resets (t : State) : Prop := t.eng = .idle ∧ t.result = 0

theorem isReset_write_ctrl {w : Word} (h : w.getLsbD 0 = true) :
    (Turn.host (.write (Register.offset .ctrl) .word w)).isReset = true := by
  simp [Turn.isReset, Register.offset, h]

theorem writeRegister_moves (s : State) (r : Register) (w : Word) :
    Stays s (s.writeRegister r w) ∨ (r = .cmd ∧ Accepts s (s.writeRegister r w)) ∨
      (r = .ctrl ∧ w.getLsbD 0 = true ∧ Resets (s.writeRegister r w)) := by
  cases r
  case ctrl =>
    by_cases hw : w.getLsbD 0 = true
    · rw [writeRegister_ctrl_of_srst s hw]
      exact .inr (.inr ⟨rfl, hw, rfl, rfl⟩)
    · rw [writeRegister_ctrl_of_no_srst s hw]
      exact .inl ⟨rfl, rfl⟩
  case cmd =>
    by_cases hidle : s.eng = .idle
    · rw [writeRegister_cmd_of_idle hidle]
      exact .inr (.inl ⟨rfl, hidle, rfl, rfl⟩)
    · rw [writeRegister_cmd_of_not_idle hidle]
      exact .inl ⟨rfl, rfl⟩
  all_goals exact .inl ⟨rfl, rfl⟩

theorem hostMove_moves {s t : State} {tr : Transaction} (h : hostMove s tr = .next t) :
    Stays s t ∨ ((∃ w, tr = .write 0x0C .word w) ∧ Accepts s t) ∨
      ((Turn.host tr).isReset = true ∧ Resets t) := by
  obtain ⟨r, rfl⟩ | ⟨r, w, rfl, rfl⟩ | ⟨a, bs, -, -, rfl⟩ := hostMove_cases h
  · exact .inl ⟨rfl, rfl⟩
  · obtain hs | ⟨rfl, ha⟩ | ⟨rfl, hw, hr⟩ := writeRegister_moves s r w
    · exact .inl hs
    · exact .inr (.inl ⟨⟨w, rfl⟩, ha⟩)
    · exact .inr (.inr ⟨isReset_write_ctrl hw, hr⟩)
  · exact .inl ⟨rfl, rfl⟩

theorem setRst_moves (s : State) (level : Bool) :
    Stays s (s.setRst level) ∨ ((Turn.rst level).isReset = true ∧ Resets (s.setRst level)) := by
  cases level with
  | true => exact .inl ⟨rfl, rfl⟩
  | false => exact .inr ⟨rfl, rfl, rfl⟩

/-- Every step is one of the four moves, and comes from the event of its move
(10_state.md R52, R44). -/
theorem step_moves {s t : State} (h : step s = .next t) :
    Stays s t ∨ ((∃ w, s.turns.head? = some (.host (.write 0x0C .word w))) ∧ Accepts s t) ∨
      ((s.turns.head? = none ∨ s.turns.head? = some .engine) ∧ Ends s t) ∨
      ((∃ r, s.turns.head? = some r ∧ r.isReset = true) ∧ Resets t) := by
  obtain ⟨-, -, rfl⟩ | ⟨hturn, -, hbusy, ⟨i, -, hexec⟩ | ⟨c, -, rfl⟩⟩ | ⟨tr, hturn, -, hhost⟩ |
    ⟨level, hturn, rfl⟩ := step_cases h rfl
  · exact .inl ⟨rfl, rfl⟩
  · exact .inr (.inr (.inl ⟨hturn, hbusy, exec_done hexec, (exec_eng hexec :)⟩))
  · exact .inr (.inr (.inl ⟨hturn, hbusy, rfl, .inr ⟨rfl, rfl⟩⟩))
  · obtain hs | ⟨⟨w, rfl⟩, ha⟩ | ⟨hr, ht⟩ := hostMove_moves hhost
    · exact .inl hs
    · exact .inr (.inl ⟨⟨w, hturn⟩, ha⟩)
    · exact .inr (.inr (.inr ⟨⟨_, hturn, hr⟩, ht⟩))
  · obtain hs | ⟨hr, ht⟩ := setRst_moves { s with turns := s.turns.tail } level
    · exact .inl hs
    · exact .inr (.inr (.inr ⟨⟨_, hturn, hr⟩, ht⟩))

/-! ## Accepting a command, and its end -/

theorem hostMove_read_register {s : State} (hrst : s.rstN = true) (r : Register) :
    hostMove s (.read r.offset .word) = .next (s.respond (okayRead (s.readRegister r))) := by
  simp [hostMove, hrst]

theorem hostMove_write_register {s : State} (hrst : s.rstN = true) (r : Register) (w : Word) :
    hostMove s (.write r.offset .word w) = .next ((s.writeRegister r w).respond okayWrite) := by
  simp [hostMove, hrst]

theorem step_of_host {s : State} {tr : Transaction} {rest : List Turn}
    (h : s.turns = .host tr :: rest) : step s = hostMove { s with turns := rest } tr := by
  simp [step, nextMove, h]

theorem step_of_engine {s : State} {rest : List Turn} {i : Instr}
    (hturn : s.turns = .engine :: rest) (hrst : s.rstN = true) (hbusy : s.eng = .busy)
    (hdecode : decode s.lcmd = .ok i) : step s = exec i { s with turns := rest } := by
  simp [step, nextMove, engineMove, hturn, hrst, hbusy, hdecode]

end Sys2Proof.Machine

open Sys2Proof Sys2Proof.Machine

/-- Settles O12: every step is one of the four moves, and ENG before the step rules the others out. -/
theorem engineTransitions : Obligations.EngineTransitions := by
  refine ⟨fun s w hidle => ?_, fun i s t h => ⟨exec_done h, ?_⟩, fun s c => ⟨rfl, rfl, rfl⟩,
    fun s => ⟨rfl, rfl⟩, fun s t h => ?_⟩
  · rw [writeRegister_cmd_of_idle hidle, State.acceptCommand_eng]
  · obtain hidle | ⟨hf, -⟩ := exec_eng h
    · exact .inl hidle
    · exact .inr ⟨hf, by simp [State.fault, hf]⟩
  · obtain ⟨heng, -⟩ | ⟨hw, hidle, hbusy, -⟩ | ⟨hturn, hbusy, hdone, hend⟩ | ⟨hr, hidle, -⟩ :=
      step_moves h
    · exact ⟨fun hs => .inl (heng.trans hs), fun hs => .inl (heng.trans hs),
        fun hs => .inl (heng.trans hs)⟩
    · exact ⟨fun _ => .inr ⟨hbusy, hw⟩, fun hs => absurd hs (by simp [hidle]),
        fun hs => absurd hs (by simp [hidle])⟩
    · exact ⟨fun hs => absurd hs (by simp [hbusy]),
        fun _ => .inr (.inl ⟨hend.imp_right And.left, hdone, hturn⟩),
        fun hs => absurd hs (by simp [hbusy])⟩
    · exact ⟨fun _ => .inl hidle, fun _ => .inr (.inr ⟨hidle, hr⟩), fun _ => .inr ⟨hidle, hr⟩⟩

/-- Settles O17: of the four moves only an end without fault and a reset change RESULT. -/
theorem resultWrittenOnlyByCompletion : Obligations.ResultWrittenOnlyByCompletion := by
  intro s t h hne
  obtain ⟨-, hkeep⟩ | ⟨-, -, -, hkeep⟩ | ⟨hturn, hbusy, hdone, hidle | ⟨-, hkeep⟩⟩ |
    ⟨hr, -, hzero⟩ := step_moves h
  · exact absurd hkeep hne
  · exact absurd hkeep hne
  · exact .inl ⟨hbusy, hidle, hdone, hturn⟩
  · exact absurd hkeep hne
  · exact .inr ⟨hzero, hr⟩

/-- Settles O15: by what a command can do, and the destination that its bytes fill. -/
theorem commandFrame : Obligations.CommandFrame := by
  intro i s t h
  have hcells : ∀ a, (commandDest i s).contains a = false → t.cwram.read a = s.cwram.read a :=
    fun _ => (exec_writesDest h).read_of_outside
  obtain ⟨c, rfl⟩ | ⟨w, rfl⟩ | ⟨r, bs, w, -, rfl⟩ := exec_cases h
  · exact ⟨by simp, rfl, .inr ⟨rfl, rfl, rfl⟩, hcells⟩
  · exact ⟨by simp, rfl, .inl ⟨rfl, rfl, rfl⟩, hcells⟩
  · exact ⟨by simp, rfl, .inl ⟨rfl, rfl, rfl⟩, hcells⟩

end

section
/-!
PROOFS. The life of a command (10_state.md R42, R51): its word decodes to it (30_encoding.md R120), the
CMD write latches it, and the engine's turn runs it.
-/

namespace Sys2Proof

/-- Each field of a packed word reads back (30_encoding.md R111, R120). -/
@[simp] theorem fields_packWord (op : BitVec 8) (ver : BitVec 6) (ecl : BitVec 2) (mask : BitVec 3)
    (mode : BitVec 2) (size : BitVec 4) :
    fieldOp (packWord op ver ecl mask mode size) = op ∧
      fieldVer (packWord op ver ecl mask mode size) = ver ∧
      fieldEcl (packWord op ver ecl mask mode size) = ecl ∧
      fieldMask (packWord op ver ecl mask mode size) = mask ∧
      fieldMode (packWord op ver ecl mask mode size) = mode ∧
      fieldSize (packWord op ver ecl mask mode size) = size := by
  refine ⟨?_, ?_, ?_, ?_, ?_, ?_⟩ <;> ext i hi <;>
    simp only [fieldOp, fieldVer, fieldEcl, fieldMask, fieldMode, fieldSize, packWord,
      BitVec.getElem_extractLsb', BitVec.getLsbD_or, BitVec.getLsbD_setWidth,
      BitVec.getLsbD_shiftLeft] <;>
    interval_cases i <;> simp

@[simp] theorem Ecl.ofCode_code (e : Ecl) : Ecl.ofCode e.code = e := by
  cases e <;> rfl

theorem rowOf_packWord (op : BitVec 8) (ver : BitVec 6) (ecl : BitVec 2) (mask : BitVec 3)
    (mode : BitVec 2) (size : BitVec 4) :
    rowOf (packWord op ver ecl mask mode size) =
      opcodeRows.find? fun r => fieldOp r.pattern == op := by
  simp only [rowOf, fields_packWord]

open Laws.EncodingSelectsRow

/-- The opcode of a command selects the command's own row (30_encoding.md R113, R118). -/
theorem rowOf_encode (i : Instr) :
    ∃ r, rowOf (encode i) = some r ∧ (r.pattern, r.care) = matchMask i ∧
      r.build (encode i) = i := by
  cases i <;> rw [encode, rowOf_packWord] <;> exact ⟨_, rfl, rfl, by simp⟩

/-- All bits of an encoding outside the row's fields are 0 (30_encoding.md R120). -/
theorem encode_selectsRow (i : Instr) : Statement i := by
  cases i with
  | exp => exact exp
  | log => exact log
  | divide => exact divide
  | rsenc ver ecl => exact rsenc ver ecl
  | struct ver ecl => exact struct ver ecl
  | dcw ver ecl => exact dcw ver ecl
  | dbits ver ecl => exact dbits ver ecl
  | ccib ver mode => exact ccib ver mode
  | groups ver ecl => exact groups ver ecl
  | ect ver ecl => exact ect ver ecl
  | getpoly ver ecl => exact getpoly ver ecl
  | fmtinfo ecl mask => exact fmtinfo ecl mask
  | pscore => exact pscore
  | trail size => exact trail size

/-- The command word of a command decodes to the command (30_encoding.md R118, R120). -/
theorem decode_encode (i : Instr) : decode (encode i) = .ok i := by
  obtain ⟨r, hrow, hmask, hbuild⟩ := rowOf_encode i
  have hcare : encode i &&& r.care = r.pattern := by
    have hsel : encode i &&& (matchMask i).2 = (matchMask i).1 := encode_selectsRow i
    rwa [← hmask] at hsel
  rw [decode, hrow]
  simp only [hcare, if_true, hbuild]

end Sys2Proof

namespace Sys2Proof.Machine

/-- `cmd <command>` from Idle is one step: the acceptance (10_state.md R42). -/
theorem step_of_hostCmd {s : State} {i : Instr} {rest : List Turn} (hrst : s.rstN = true)
    (hidle : s.eng = .idle) (hturns : s.turns = hostCmd i ++ rest) :
    step s = .next (({ s with turns := rest }.acceptCommand (encode i)).respond okayWrite) := by
  have hhead : s.turns = .host (.write (Register.offset .cmd) .word (encode i)) :: rest := hturns
  rw [step_of_host hhead, hostMove_write_register (s := { s with turns := rest }) hrst,
    writeRegister_cmd_of_idle (s := { s with turns := rest }) hidle]

end Sys2Proof.Machine

open Sys2Proof Sys2Proof.Machine

/-- Settles O8: the CMD write is accepted, and the engine decodes the latched word. -/
theorem commandLifecycle : Obligations.CommandLifecycle := by
  intro i s rest hrst hidle hturns
  exact ⟨_, step_of_hostCmd hrst hidle hturns, rfl, rfl, rfl, rfl, rfl, rfl, rfl, rfl, rfl,
    step_of_engine rfl hrst rfl (decode_encode i)⟩

end

section
/-!
PROOFS. The registers one by one (10_state.md R33 to R48), the reset state (R55) and the interrupt
output (R53).
-/

namespace Sys2Proof.Machine

/-! ## STATUS and CTRL as numbers -/

/-- Concatenation in arithmetic. -/
theorem toNat_append_eq_add {m n : Nat} (x : BitVec m) (y : BitVec n) :
    (x ++ y).toNat = x.toNat * 2 ^ n + y.toNat := by
  rw [BitVec.toNat_append, ← Nat.shiftLeft_add_eq_or_of_lt y.isLt, Nat.shiftLeft_eq]

theorem ctrlWord_eq (s : State) : s.ctrlWord = BitVec.ofNat 32 (if s.irqen then 2 else 0) := by
  unfold State.ctrlWord
  cases s.irqen <;> rfl

theorem statusWord_eq (s : State) :
    s.statusWord = BitVec.ofNat 32 (s.fcause.toNat * 256 + (if s.ovr then 8 else 0) +
      (if s.eng = .faulted then 4 else 0) + (if s.done then 2 else 0) +
      (if s.eng = .busy then 1 else 0)) := by
  have hcause : s.fcause.toNat < 256 := s.fcause.isLt
  have bit (b : Bool) : (BitVec.ofBool b).toNat = if b then 1 else 0 := by cases b <;> rfl
  apply BitVec.eq_of_toNat_eq
  simp only [State.statusWord, State.fault, State.busy, toNat_append_eq_add, bit, beq_iff_eq,
    BitVec.toNat_ofNat]
  split_ifs <;> omega

end Sys2Proof.Machine

open Sys2Proof Sys2Proof.Machine

/-- Settles O9: the reset state evaluates to these values, register by register. -/
theorem resetValues : Obligations.ResetValues := by
  refine ⟨rfl, rfl, rfl, fun r hid hsize => ?_, rfl, rfl, fun _ => rfl⟩
  cases r with
  | id => exact absurd rfl hid
  | cwsize => exact absurd rfl hsize
  | _ => rfl

/-- Settles O10: the reset state is Idle and lists no CWRAM cell. -/
theorem resetMeetsInvariant : Obligations.ResetMeetsInvariant where
  busy_done hb := by cases hb
  busy_cmdlast hb := by cases hb
  noFault _ := ⟨rfl, rfl⟩
  faulted hf := by cases hf
  inReset _ := rfl
  cwram := Memory.wf_nil

/-- Settles O22: each offset of the list is a register's, and its value is what the register reads. -/
theorem registerReads : Obligations.RegisterReads := by
  intro s off v hrst hmem
  obtain ⟨r, rfl, rfl⟩ : ∃ r : Register, off = r.offset ∧ v = s.readRegister r := by
    rw [← ctrlWord_eq, ← statusWord_eq] at hmem
    simp only [List.mem_cons, Prod.mk.injEq, List.not_mem_nil, or_false] at hmem
    obtain h | h | h | h | h | h | h | h | h | h := hmem
    exacts [⟨.id, h⟩, ⟨.ctrl, h⟩, ⟨.status, h⟩, ⟨.cmd, h⟩, ⟨.arg0, h⟩, ⟨.arg1, h⟩, ⟨.arg2, h⟩,
      ⟨.result, h⟩, ⟨.fcmd, h⟩, ⟨.cwsize, h⟩]
  exact hostMove_read_register hrst r

/-- Settles O23: the write rule of CTRL under the response. -/
theorem ctrlWrite : Obligations.CtrlWrite := fun _ w hrst =>
  hostMove_write_register hrst .ctrl w

/-- Settles O24: `d && !b` is `d` cleared by a 1 bit. -/
theorem statusWrite : Obligations.StatusWrite := by
  intro s w hrst
  have clear (d b : Bool) : (d && !b) = if b then false else d := by cases b <;> simp
  simp only [← clear]
  exact hostMove_write_register hrst .status w

/-- Settles O25: the write rule of CMD in its two cases, and the read of CMDLAST. -/
theorem cmdWrite : Obligations.CmdWrite := by
  refine ⟨fun s w hrst hidle => ?_, fun s w hrst hbusy => ?_, fun s hrst => ?_⟩
  · exact (hostMove_write_register hrst .cmd w).trans (by rw [writeRegister_cmd_of_idle hidle]; rfl)
  · exact (hostMove_write_register hrst .cmd w).trans
      (by rw [writeRegister_cmd_of_not_idle hbusy]; rfl)
  · exact hostMove_read_register hrst .cmd

/-- Settles O26: a read-only register's write rule leaves the state alone. -/
theorem argAndReadOnlyWrites : Obligations.ArgAndReadOnlyWrites := by
  intro s w hrst
  refine ⟨hostMove_write_register hrst .arg0 w, hostMove_write_register hrst .arg1 w,
    hostMove_write_register hrst .arg2 w, fun off hoff => ?_⟩
  simp only [List.mem_cons, List.not_mem_nil, or_false] at hoff
  obtain rfl | rfl | rfl | rfl := hoff
  exacts [hostMove_write_register hrst .id w, hostMove_write_register hrst .result w,
    hostMove_write_register hrst .fcmd w, hostMove_write_register hrst .cwsize w]

/-- Settles O30: each event sets or clears IRQEN or DONE as its operation's rule says. -/
theorem interruptLine : Obligations.InterruptLine := by
  refine ⟨fun s => rfl, fun i s t h hirqen => ?_, fun s c hirqen => ?_, fun s w hdone h0 h1 => ?_,
    fun s w h1 => ?_, fun s w h1 => ?_, fun s w hidle => ?_, fun s => ⟨rfl, rfl⟩⟩
  · rw [State.irq, exec_irqen h, hirqen, exec_done h, Bool.and_self]
  · rw [State.irq, State.raiseFault_irqen, hirqen, State.raiseFault_done, Bool.and_self]
  · rw [writeRegister_ctrl_of_no_srst s (by rw [h0]; decide), State.irq, h1, hdone, Bool.and_self]
  · rw [State.irq, State.writeRegister, State.writeStatus_done, h1, Bool.not_true, Bool.and_false,
      Bool.and_false]
  · by_cases h0 : w.getLsbD 0 = true
    · rw [writeRegister_ctrl_of_srst s h0]
      rfl
    · rw [writeRegister_ctrl_of_no_srst s h0, State.irq, h1, Bool.false_and]
  · rw [writeRegister_cmd_of_idle hidle, State.irq, State.acceptCommand_done, Bool.and_false]

end

section
/-!
PROOFS. The host bus (20_memory.md): which turn a step performs (R90, R91), the accesses the block
rejects (R82 to R84), the CWRAM window byte by byte (R83, R85), and CWRAM while a command runs (R92).
-/

namespace Sys2Proof.Machine

/-! ## One step, by its first turn (20_memory.md R91) -/

theorem step_of_rst {s : State} {level : Bool} {rest : List Turn} (h : s.turns = .rst level :: rest) :
    step s = .next ({ s with turns := rest }.setRst level) := by
  simp [step, nextMove, h]

theorem step_of_engine_not_busy {s : State} {rest : List Turn} (h : s.turns = .engine :: rest)
    (hidle : s.eng ≠ .busy) : step s = .next { s with turns := rest } := by
  simp [step, nextMove, engineMove, h, hidle]

theorem step_of_noTurn {s : State} {i : Instr} (h : s.turns = []) (hrst : s.rstN = true)
    (hbusy : s.eng = .busy) (hdecode : decode s.lcmd = .ok i) : step s = exec i s := by
  simp [step, nextMove, engineMove, h, hrst, hbusy, hdecode]

theorem step_of_noTurn_not_busy {s : State} (h : s.turns = []) (hidle : s.eng ≠ .busy) :
    step s = .next s := by
  simp [step, nextMove, engineMove, h, hidle]

/-! ## What an access reaches (20_memory.md R82 to R84) -/

theorem target_register_rejected {s : State} {off : BitVec 14} {n : AccessSize}
    (hoff : off.toNat < 0x28) (h : n ≠ .word ∨ off.toNat % 4 ≠ 0) : s.target off n = .error := by
  have hn : ¬ (n = .word ∧ off.toNat % 4 = 0) := by tauto
  unfold State.target
  exact (if_pos hoff).trans (if_neg hn)

theorem target_unmapped {s : State} {off : BitVec 14} {n : AccessSize}
    (hlow : 0x28 ≤ off.toNat) (hhigh : off.toNat < 0x2000) : s.target off n = .error := by
  have hreg : ¬ off.toNat < Config.registerBytes := Nat.not_lt.2 hlow
  unfold State.target
  exact (if_neg hreg).trans (if_pos hhigh)

/-- What a window access reaches (20_memory.md R83). -/
theorem target_window {s : State} {off : BitVec 14} {n : AccessSize} (hoff : 0x2000 ≤ off.toNat) :
    s.target off n = if (off.toNat - 0x2000) % n.bytes = 0 ∧ s.eng ≠ .busy
      then .cells (off.toNat - 0x2000) else .error := by
  have hreg : ¬ off.toNat < Config.registerBytes := by
    rw [Config.registerBytes]
    omega
  have hmap : ¬ off.toNat < Config.cwramBase := Nat.not_lt.2 hoff
  unfold State.target
  exact (if_neg hreg).trans (if_neg hmap)

theorem target_window_performed {s : State} {off : BitVec 14} {n : AccessSize}
    (hoff : 0x2000 ≤ off.toNat) (hal : (off.toNat - 0x2000) % n.bytes = 0) (hb : s.eng ≠ .busy) :
    s.target off n = .cells (off.toNat - 0x2000) := by
  rw [target_window hoff, if_pos ⟨hal, hb⟩]

theorem target_window_rejected {s : State} {off : BitVec 14} {n : AccessSize}
    (hoff : 0x2000 ≤ off.toNat) (h : (off.toNat - 0x2000) % n.bytes ≠ 0 ∨ s.eng = .busy) :
    s.target off n = .error := by
  rw [target_window hoff, if_neg fun ⟨hal, hb⟩ => h.elim (· hal) hb]

/-! ## The transaction, by its target -/

section
variable {s : State} {off : BitVec 14} {n : AccessSize} (hrst : s.rstN = true)
include hrst

theorem hostMove_read_of_error (h : s.target off n = .error) :
    hostMove s (.read off n) = .next (s.respond errorRead) := by
  simp [hostMove, busRead, hrst, h]

theorem hostMove_write_of_error (h : s.target off n = .error) (w : Word) :
    hostMove s (.write off n w) = .next (s.respond errorWrite) := by
  simp [hostMove, busWrite, hrst, h]

theorem hostMove_read_of_defined {a : Nat} {bs : List Byte} (h : s.target off n = .cells a)
    (hbs : s.cwram.readBytes a n.bytes = .ok bs) :
    hostMove s (.read off n) =
      .next (s.respond (okayRead (BitVec.ofNat 32 (littleEndian bs)))) := by
  simp [hostMove, busRead, readThen, hrst, h, hbs]

theorem hostMove_read_of_undefined {a b : Nat} (h : s.target off n = .cells a)
    (hb : s.cwram.readBytes a n.bytes = .error b) :
    hostMove s (.read off n) = .fault (.undefinedCell b) := by
  simp [hostMove, busRead, readThen, hrst, h, hb]

theorem hostMove_write_of_cells {a : Nat} (h : s.target off n = .cells a) (w : Word) :
    hostMove s (.write off n w) = .next
      ({ s with cwram := s.cwram.writeBytes a (bytesOf n.bytes w) }.respond okayWrite) := by
  simp [hostMove, busWrite, hrst, h]

end

/-! ## Several cells -/

/-- The cell a failing read names is undefined (93_implementation_defined.md I3). -/
theorem Memory.read_of_readBytes_error {m : Memory} {base n a : Nat}
    (h : m.readBytes base n = .error a) : m.read a = none := by
  induction n generalizing base with
  | zero => cases h
  | succ n ih =>
    rw [Memory.readBytes] at h
    cases hread : m.read base with
    | none =>
      rw [hread] at h
      cases h
      exact hread
    | some b =>
      cases hrest : m.readBytes (base + 1) n with
      | error a' =>
        simp only [hread, hrest] at h
        cases h
        exact ih hrest
      | ok bs =>
        simp only [hread, hrest] at h
        cases h

/-! ## Byte order (20_memory.md R85) -/

theorem AccessSize.bytes_le (n : AccessSize) : n.bytes ≤ 4 := by
  cases n <;> decide

theorem littleEndian_lt (bs : List Byte) : littleEndian bs < 2 ^ (8 * bs.length) := by
  induction bs with
  | nil => decide
  | cons b rest ih =>
    have hb : b.toNat < 256 := b.isLt
    rw [littleEndian, List.length_cons, Nat.mul_succ, Nat.pow_add]
    omega

/-- Byte `t` of a little-endian value. -/
theorem littleEndian_div_mod {bs : List Byte} {t : Nat} (ht : t < bs.length) :
    littleEndian bs / 2 ^ (8 * t) % 2 ^ 8 = bs[t].toNat := by
  induction bs generalizing t with
  | nil => simp at ht
  | cons b rest ih =>
    have hb : b.toNat < 256 := b.isLt
    rw [littleEndian]
    cases t with
    | zero =>
      rw [Nat.mul_zero, Nat.pow_zero, Nat.div_one, List.getElem_cons_zero]
      omega
    | succ t =>
      have hshift : (b.toNat + 256 * littleEndian rest) / 256 = littleEndian rest := by omega
      rw [Nat.mul_succ, Nat.add_comm (8 * t), Nat.pow_add, ← Nat.div_div_eq_div_mul, hshift,
        ih (Nat.lt_of_succ_lt_succ ht), List.getElem_cons_succ]

/-- A value of at most four bytes fits the data bus. -/
theorem toNat_littleEndian {bs : List Byte} (hlen : bs.length ≤ 4) :
    (BitVec.ofNat 32 (littleEndian bs)).toNat = littleEndian bs := by
  have hpow : 2 ^ (8 * bs.length) ≤ 2 ^ 32 := Nat.pow_le_pow_right (by decide) (by omega)
  exact Nat.mod_eq_of_lt ((littleEndian_lt bs).trans_le hpow)

/-- Bits `[8t+7 : 8t]` of rdata are byte `t`. -/
theorem extractLsb'_littleEndian {bs : List Byte} (hlen : bs.length ≤ 4) {t : Nat}
    (ht : t < bs.length) :
    (BitVec.ofNat 32 (littleEndian bs)).extractLsb' (8 * t) 8 = bs[t] := by
  apply BitVec.eq_of_toNat_eq
  rw [BitVec.extractLsb'_toNat, toNat_littleEndian hlen, Nat.shiftRight_eq_div_pow,
    littleEndian_div_mod ht]

/-- Byte `t` of a write is bits `[8t+7 : 8t]` of wdata. -/
theorem getElem?_bytesOf {n t : Nat} (w : Word) (ht : t < n) :
    (bytesOf n w)[t]? = some (w.extractLsb' (8 * t) 8) := by
  simp [bytesOf, ht]

/-! ## CWRAM while a command runs (20_memory.md R92, 70_reset_and_hazards.md R306) -/

/-- No register write but a soft reset changes CWRAM. -/
theorem writeRegister_cwram (s : State) {r : Register} {w : Word}
    (h : (Turn.host (.write r.offset .word w)).isReset = false) :
    (s.writeRegister r w).cwram = s.cwram := by
  cases r with
  | ctrl =>
    have hsrst : ¬ w.getLsbD 0 = true := fun hw => by simp [isReset_write_ctrl hw] at h
    rw [writeRegister_ctrl_of_no_srst s hsrst]
  | cmd =>
    by_cases hidle : s.eng = .idle
    · rw [writeRegister_cmd_of_idle hidle, State.acceptCommand_cwram]
    · rw [writeRegister_cmd_of_not_idle hidle]
  | _ => rfl

theorem hostMove_cwram_of_busy {s t : State} {tr : Transaction} (hbusy : s.eng = .busy)
    (hreset : (Turn.host tr).isReset = false) (h : hostMove s tr = .next t) : t.cwram = s.cwram := by
  obtain ⟨r, rfl⟩ | ⟨r, w, rfl, rfl⟩ | ⟨a, bs, hb, -, -⟩ := hostMove_cases h
  · rfl
  · exact writeRegister_cwram s hreset
  · exact absurd hbusy hb

end Sys2Proof.Machine

open Sys2Proof Sys2Proof.Machine

/-- Settles O16: a window write of a Busy engine is rejected, and no other transaction but the soft
reset reaches CWRAM. -/
theorem hostCannotTouchBusyCwram : Obligations.HostCannotTouchBusyCwram := by
  intro s t tr hbusy hturn hreset h
  obtain ⟨rest, hturns⟩ := List.head?_eq_some_iff.1 hturn
  rw [step_of_host hturns] at h
  exact hostMove_cwram_of_busy (s := { s with turns := rest }) hbusy hreset h

/-- Settles O27: such an access reaches nothing. -/
theorem rejectedAccesses : Obligations.RejectedAccesses := by
  intro s off n w hrst h
  have htarget : s.target off n = .error := by
    obtain ⟨hoff, hn⟩ | ⟨hlow, hhigh⟩ := h
    · exact target_register_rejected hoff hn
    · exact target_unmapped hlow hhigh
  exact ⟨hostMove_read_of_error hrst htarget, hostMove_write_of_error hrst htarget w⟩

/-- Settles O28: rdata is the little-endian value of the cells read. -/
theorem windowReads : Obligations.WindowReads := by
  intro s off n hrst hoff
  refine ⟨fun hal hb => ?_, fun h => hostMove_read_of_error hrst (target_window_rejected hoff h)⟩
  have htarget := target_window_performed hoff hal hb
  refine ⟨fun bs hbs => ⟨_, hostMove_read_of_defined hrst htarget hbs, ?_⟩,
    fun a ha => ⟨Memory.read_of_readBytes_error ha, hostMove_read_of_undefined hrst htarget ha⟩⟩
  obtain ⟨hlen, hcells⟩ := Memory.readBytes_eq_ok.1 hbs
  have hlen4 : bs.length ≤ 4 := hlen ▸ n.bytes_le
  refine ⟨?_, fun t ht => ?_⟩
  · rw [toNat_littleEndian hlen4, ← hlen]
    exact littleEndian_lt bs
  · have ht' : t < bs.length := hlen ▸ ht
    rw [hcells t ht, List.getElem?_eq_getElem ht', extractLsb'_littleEndian hlen4 ht']

/-- Settles O29: the cells written read back, and every other cell reads as before. -/
theorem windowWrites : Obligations.WindowWrites := by
  intro s off n w hrst hoff
  refine ⟨fun hal hb => ?_, fun h => hostMove_write_of_error hrst (target_window_rejected hoff h) w⟩
  refine ⟨_, hostMove_write_of_cells hrst (target_window_performed hoff hal hb) w,
    fun t ht => ?_, fun a ha => ?_⟩
  · rw [Memory.read_writeBytes_of_inside _ _ _ _ (by rwa [length_bytesOf]), getElem?_bytesOf w ht]
  · exact Memory.read_writeBytes_of_outside _ _ (by rwa [length_bytesOf])

/-- Settles O6: an engine turn and an empty turn list both give the Busy engine its move. -/
theorem stepRunsDecodedCommand : Obligations.StepRunsDecodedCommand :=
  fun _ _ hrst hbusy hdecode =>
    ⟨fun _ hturns => step_of_engine hturns hrst hbusy hdecode,
      fun hturns => step_of_noTurn hturns hrst hbusy hdecode⟩

/-- Settles O7: the rules of the four turns that run no command. -/
theorem stepPerformsNextTurn : Obligations.StepPerformsNextTurn :=
  ⟨fun _ _ _ => step_of_host, fun _ _ _ => step_of_rst, fun _ _ => step_of_engine_not_busy,
    fun _ => step_of_noTurn_not_busy⟩

end

section
/-!
PROOFS. The encoding (30_encoding.md): the rows of the opcode map and the decoder's answers (R113 to
R118), the encoding as a row's match word and the word's free bits (R120), and the engine's step on a
word that does not decode.
-/

namespace Sys2Proof

/-! ## The rows of the opcode map (30_encoding.md R113) -/

theorem opcodes_nodup : (opcodeRows.map fun r => fieldOp r.pattern).Nodup := by decide

theorem toNat_fieldOp (w : Word) : (fieldOp w).toNat = w.toNat % 256 := by
  simp [fieldOp]

/-- A word selects the one row that has its OP. -/
theorem rowOf_eq_some_iff {w : Word} {r : OpcodeRow} :
    rowOf w = some r ↔ r ∈ opcodeRows ∧ fieldOp r.pattern = fieldOp w := by
  constructor
  · intro h
    exact ⟨List.mem_of_find?_eq_some h, by simpa using List.find?_some h⟩
  · rintro ⟨hmem, hop⟩
    obtain ⟨q, hq⟩ : ∃ q, rowOf w = some q :=
      Option.isSome_iff_exists.1 (List.find?_isSome.2 ⟨r, hmem, by simp [hop]⟩)
    have hqop : fieldOp q.pattern = fieldOp w := by simpa using List.find?_some hq
    have hqr : q = r := List.inj_on_of_nodup_map opcodes_nodup (List.mem_of_find?_eq_some hq) hmem
      (hqop.trans hop.symm)
    rw [hq, hqr]

/-- No row has the OP of the word when its OP is not listed (30_encoding.md R116). -/
theorem rowOf_eq_none {w : Word}
    (h : w.toNat % 256 ∉ opcodeRows.map fun r => (fieldOp r.pattern).toNat) : rowOf w = none := by
  refine List.find?_eq_none.2 fun r hr hop => h (List.mem_map.2 ⟨r, hr, ?_⟩)
  rw [beq_iff_eq.1 hop, toNat_fieldOp]

/-- A match word has no bit outside OP. -/
theorem pattern_getLsbD_eq_false {r : OpcodeRow} (hr : r ∈ opcodeRows) {b : Nat} (hb : 8 ≤ b) :
    r.pattern.getLsbD b = false := by
  have hlt : ∀ r ∈ opcodeRows, r.pattern.toNat < 2 ^ 8 := by decide
  exact Nat.testBit_lt_two_pow ((hlt r hr).trans_le (Nat.pow_le_pow_right (by decide) hb))

/-! ## The decoder's answers (30_encoding.md R116 to R118) -/

theorem decode_eq_ok_iff {w : Word} {i : Instr} :
    decode w = .ok i ↔ ∃ r, rowOf w = some r ∧ w &&& r.care = r.pattern ∧ r.build w = i := by
  unfold decode
  cases rowOf w with
  | none => simp
  | some r => by_cases hcare : w &&& r.care = r.pattern <;> simp [hcare]

theorem decode_of_rowOf_none {w : Word} (h : rowOf w = none) :
    decode w = .error .illegalOpcode := by
  rw [decode, h]

/-- A 1 outside OP in a bit the row's mask covers is a reserved bit. -/
theorem decode_of_reserved_bit {w : Word} {r : OpcodeRow} (hrow : rowOf w = some r) {b : Nat}
    (hb : 8 ≤ b) (hcare : r.care.getLsbD b = true) (hset : w.getLsbD b = true) :
    decode w = .error .reservedBits := by
  have hpattern : r.pattern.getLsbD b = false :=
    pattern_getLsbD_eq_false (rowOf_eq_some_iff.1 hrow).1 hb
  have hne : w &&& r.care ≠ r.pattern := fun h => by
    rw [← h, BitVec.getLsbD_and, hset, hcare] at hpattern
    cases hpattern
  rw [decode, hrow]
  exact if_neg hne

/-! ## The encoding of what a row builds (30_encoding.md R111, R120) -/

/-- A field shifted back to its place is the word restricted to the field's bits. -/
theorem setWidth_extractLsb'_shiftLeft (w : Word) (start len : Nat) :
    (w.extractLsb' start len).setWidth 32 <<< start =
      w &&& BitVec.ofNat 32 ((2 ^ len - 1) <<< start) := by
  apply BitVec.eq_of_getLsbD_eq
  intro i hi
  simp only [BitVec.getLsbD_shiftLeft, BitVec.getLsbD_setWidth, BitVec.getLsbD_extractLsb',
    BitVec.getLsbD_and, BitVec.getLsbD_ofNat, Nat.testBit_shiftLeft, Nat.testBit_two_pow_sub_one]
  by_cases hlow : i < start
  · simp [hlow]
  · have hback : start + (i - start) = i := by omega
    have hin : i - start < 32 := by omega
    simp [hlow, hback, hin, hi, Bool.and_comm, Nat.not_lt.1 hlow]

theorem Ecl.code_ofCode (c : BitVec 2) : (Ecl.ofCode c).code = c := by
  revert c
  decide

theorem packWord_opcode (op : BitVec 8) (w : Word) :
    packWord op 0 0 0 0 0 = op.setWidth 32 ||| (w &&& 0) := by
  simp [packWord]

theorem packWord_version_ecl_fields (op : BitVec 8) (w : Word) :
    packWord op (fieldVer w) (Ecl.ofCode (fieldEcl w)).code 0 0 0 =
      op.setWidth 32 ||| (w &&& 0xFF00) := by
  simp only [packWord, fieldVer, Ecl.code_ofCode, fieldEcl, setWidth_extractLsb'_shiftLeft]
  simp [BitVec.or_assoc, ← BitVec.and_or_distrib_left]

theorem packWord_version_mode_fields (op : BitVec 8) (w : Word) :
    packWord op (fieldVer w) 0 0 (fieldMode w) 0 = op.setWidth 32 ||| (w &&& 0x183F00) := by
  simp only [packWord, fieldVer, fieldMode, setWidth_extractLsb'_shiftLeft]
  simp [BitVec.or_assoc, ← BitVec.and_or_distrib_left]

theorem packWord_ecl_mask_fields (op : BitVec 8) (w : Word) :
    packWord op 0 (Ecl.ofCode (fieldEcl w)).code (fieldMask w) 0 0 =
      op.setWidth 32 ||| (w &&& 0x7C000) := by
  simp only [packWord, Ecl.code_ofCode, fieldEcl, fieldMask, setWidth_extractLsb'_shiftLeft]
  simp [BitVec.or_assoc, ← BitVec.and_or_distrib_left]

theorem packWord_size_field (op : BitVec 8) (w : Word) :
    packWord op 0 0 0 0 (fieldSize w) = op.setWidth 32 ||| (w &&& 0xF000000) := by
  simp only [packWord, fieldSize, setWidth_extractLsb'_shiftLeft]
  simp

/-- The encoding of the command a row builds from a word: the row's match word, and the word's bits
outside the row's mask. -/
theorem encode_build {r : OpcodeRow} (hr : r ∈ opcodeRows) (w : Word) :
    encode (r.build w) = r.pattern ||| (w &&& ~~~r.care) := by
  simp only [opcodeRows, List.mem_cons, List.not_mem_nil, or_false] at hr
  obtain rfl | rfl | rfl | rfl | rfl | rfl | rfl | rfl | rfl | rfl | rfl | rfl | rfl | rfl := hr
  exacts [packWord_opcode _ w, packWord_opcode _ w, packWord_opcode _ w,
    packWord_version_ecl_fields _ w, packWord_version_ecl_fields _ w,
    packWord_version_ecl_fields _ w, packWord_version_ecl_fields _ w,
    packWord_version_mode_fields _ w, packWord_version_ecl_fields _ w,
    packWord_version_ecl_fields _ w, packWord_version_ecl_fields _ w,
    packWord_ecl_mask_fields _ w, packWord_opcode _ w, packWord_size_field _ w]

/-- A word that decodes is the encoding of its command: the row's mask leaves the match word, and the
command keeps the other bits (30_encoding.md R110, R119). -/
theorem encode_of_decode {w : Word} {i : Instr} (h : decode w = .ok i) : encode i = w := by
  obtain ⟨r, hrow, hcare, rfl⟩ := decode_eq_ok_iff.1 h
  calc encode (r.build w)
      = (w &&& r.care) ||| (w &&& ~~~r.care) := by
        rw [encode_build (rowOf_eq_some_iff.1 hrow).1, hcare]
    _ = w := by rw [← BitVec.and_or_distrib_left, BitVec.or_not_self, BitVec.and_allOnes]

theorem encode_eq_iff_decode_eq_ok {i : Instr} {w : Word} : encode i = w ↔ decode w = .ok i :=
  ⟨fun h => h ▸ decode_encode i, encode_of_decode⟩

/-- Both directions of an encoding example from the first. -/
theorem encode_and_decode_of_encode {i : Instr} {w : Word} (h : encode i = w) :
    encode i = w ∧ decode w = .ok i :=
  ⟨h, encode_eq_iff_decode_eq_ok.1 h⟩

end Sys2Proof

namespace Sys2Proof.Machine

/-- A Busy engine whose latched word does not decode faults, on its turn and with no turn left
(30_encoding.md R118; log entry 1). -/
theorem step_of_decode_error {s : State} {rest : List Turn} {c : Cause} (hrst : s.rstN = true)
    (hbusy : s.eng = .busy) (hturn : s.turns = .engine :: rest ∨ (s.turns = [] ∧ rest = []))
    (hdecode : decode s.lcmd = .error c) :
    step s = .next ({ s with turns := rest }.faultEntry (causeCode c)) := by
  obtain hturn | ⟨hturn, rfl⟩ := hturn <;>
    simp [step, nextMove, engineMove, hturn, hrst, hbusy, hdecode, State.raiseFault,
      State.faultEntry]

end Sys2Proof.Machine

open Sys2Proof Sys2Proof.Machine

/-- Settles O1: the opcode of an encoding selects the command's own row, which reads its fields
back. -/
theorem decodeEncodeRoundTrip : Obligations.DecodeEncodeRoundTrip :=
  decode_encode

/-- Settles O2: the word is its row's match word and the bits that the command keeps. -/
theorem encodeDecodeRoundTrip : Obligations.EncodeDecodeRoundTrip :=
  fun _ _ => encode_of_decode

/-- Settles O4: the fourteen opcodes are those of the rows, so no row is selected. -/
theorem illegalOpcodeFaults : Obligations.IllegalOpcodeFaults := by
  refine ⟨fun s rest hrst hbusy hturn hop => ?_, rfl⟩
  exact step_of_decode_error hrst hbusy hturn (decode_of_rowOf_none (rowOf_eq_none hop))

/-- Settles O5: the free bits of each opcode are those its row's mask leaves out. -/
theorem reservedBitsFault : Obligations.ReservedBitsFault := by
  intro s rest op free hrst hbusy hturn hop hmem hbit
  obtain ⟨b, hb8, hb32, hset, hfree⟩ := hbit
  have hrows : (op, free) ∈ opcodeRows.map fun r =>
      ((fieldOp r.pattern).toNat, (~~~r.care).toNat) := hmem
  obtain ⟨r, hr, heq⟩ := List.mem_map.1 hrows
  obtain ⟨rfl, rfl⟩ := Prod.mk.inj heq
  have hrow : rowOf s.lcmd = some r :=
    rowOf_eq_some_iff.2 ⟨hr, BitVec.eq_of_toNat_eq ((toNat_fieldOp s.lcmd).trans hop).symm⟩
  have hcare : r.care.getLsbD b = true := by
    have hnot : (~~~r.care).getLsbD b = false := hfree
    simpa [hb32] using hnot
  exact step_of_decode_error hrst hbusy hturn (decode_of_reserved_bit hrow hb8 hcare hset)

/-- Settles O3: each word is the encoding of its command, and so decodes to it. -/
theorem encodingExamples : Obligations.EncodingExamples := by
  refine ⟨?_, ?_, ?_, ?_, ?_, ?_, ?_, ?_, ?_, ?_, ?_, ?_, ?_⟩ <;>
    exact encode_and_decode_of_encode rfl

end

section
/-!
PROOFS. The EXP and LOG ROMs (40_gf_engine.md R140 to R142), and the commands that read them (R144,
R145).
-/

namespace Sys2Proof.Machine

/-! ## The tables -/

/-- A nonzero byte is the power of 2 that LOG names. -/
theorem expRom_logRom_byte {c : Byte} (hc : c ≠ 0) : expRom (logRom c.toNat).toNat = c := by
  have entries : ∀ c : Byte, c ≠ 0 → expRom (logRom c.toNat).toNat = c := by decide +kernel
  exact entries c hc

theorem expRom_logRom {v : Nat} (h1 : 1 ≤ v) (h255 : v ≤ 255) :
    expRom (logRom v).toNat = BitVec.ofNat 8 v := by
  have hv : (BitVec.ofNat 8 v).toNat = v := Nat.mod_eq_of_lt (by omega)
  have hne : BitVec.ofNat 8 v ≠ 0 := by
    intro h
    rw [h] at hv
    exact absurd hv.symm (Nat.ne_of_gt h1)
  simpa only [hv] using expRom_logRom_byte hne

/-- No entry of LOG exceeds 254, and 0 is read outside the table. -/
theorem toNat_logRom_le (v : Nat) : (logRom v).toNat ≤ 254 := by
  have entries : ∀ x ∈ logTable, x ≤ 254 := by decide +kernel
  have hentry : logTable.getD v 0 ≤ 254 := by
    rw [List.getD_eq_getElem?_getD]
    cases h : logTable[v]? with
    | none => exact Nat.zero_le 254
    | some x => exact entries x (List.mem_of_getElem? h)
  exact (Nat.mod_le _ _).trans hentry

theorem toNat_logRom_expRom {e : Nat} (h254 : e ≤ 254) :
    (logRom (expRom e).toNat).toNat = e := by
  have entries : ∀ e ≤ 254, (logRom (expRom e).toNat).toNat = e := by decide +kernel
  exact entries e h254

theorem expRom_ne_zero {e : Nat} (h255 : e ≤ 255) : expRom e ≠ 0 := by
  have entries : ∀ e ≤ 255, expRom e ≠ 0 := by decide +kernel
  exact entries e h255

/-- Twice a field element, reduced by 0x11D (00_scope.md R10). -/
def gfDouble (c : Byte) : Byte := (c <<< 1) ^^^ (bif c.msb then 0x1D else 0)

theorem toNat_gfDouble (c : Byte) :
    (gfDouble c).toNat = if c.toNat < 128 then 2 * c.toNat else (2 * c.toNat) ^^^ 0x11D := by
  revert c
  decide +kernel

theorem expRom_succ {e : Nat} (h254 : e ≤ 254) : expRom (e + 1) = gfDouble (expRom e) := by
  have entries : ∀ e ≤ 254, expRom (e + 1) = gfDouble (expRom e) := by decide +kernel
  exact entries e h254

/-! ## The commands -/

theorem resultIs_toNat (s : State) (b : Byte) : s.resultIs b.toNat = s.complete (b.setWidth 32) := by
  rw [State.resultIs, BitVec.ofNat_toNat, State.complete]

theorem exec_exp_of_le {s : State} (h255 : s.operand ≤ 255) :
    exec .exp s = .next (s.resultIs (expRom s.operand).toNat) := by
  rw [exec, execExp, expResult, if_neg (not_lt.2 h255), finish_ok, resultIs_toNat]

theorem exec_exp_of_gt {s : State} (h255 : 255 < s.operand) :
    exec .exp s = .next (s.faultEntry 0x06) := by
  rw [exec, execExp, expResult, if_pos h255, finish_error]
  rfl

theorem exec_log_of_le {s : State} (h1 : 1 ≤ s.operand) (h255 : s.operand ≤ 255) :
    exec .log s = .next (s.resultIs (logRom s.operand).toNat) := by
  rw [exec, execLog, logResult, if_neg (not_lt.2 h255), if_neg (by omega), finish_ok, resultIs_toNat]

theorem exec_log_of_gt {s : State} (h255 : 255 < s.operand) :
    exec .log s = .next (s.faultEntry 0x06) := by
  rw [exec, execLog, logResult, if_pos h255, finish_error]
  rfl

theorem exec_log_of_zero {s : State} (h0 : s.operand = 0) :
    exec .log s = .next (s.faultEntry 0x07) := by
  rw [exec, execLog, logResult, if_neg (by omega), if_pos h0, finish_error]
  rfl

end Sys2Proof.Machine

open Sys2Proof Sys2Proof.Machine

/-- Settles O34: LOG is a two-sided inverse of EXP, so its entry is the one exponent of a byte. -/
theorem expLogTableLaws : Obligations.ExpLogTableLaws := by
  refine ⟨fun v => expRom_logRom, fun e => toNat_logRom_expRom, rfl,
    fun b hb => ⟨(logRom b.toNat).toNat, toNat_logRom_le _, expRom_logRom_byte hb, ?_⟩,
    fun e => expRom_ne_zero, fun e h254 => by rw [expRom_succ h254, toNat_gfDouble]⟩
  rintro e h254 rfl
  exact (toNat_logRom_expRom h254).symm

/-- Settles O32: EXP on its two ranges, and the entries the statement names. -/
theorem expReadsField : Obligations.ExpReadsField :=
  ⟨fun _ => exec_exp_of_le, fun _ => exec_exp_of_gt, encode_eq_iff_decode_eq_ok.1 (by decide), rfl,
    rfl, fun _ => expRom_ne_zero, rfl⟩

/-- Settles O33: LOG on its three ranges, and the entries the statement names. -/
theorem logReadsExponent : Obligations.LogReadsExponent :=
  ⟨fun _ => exec_log_of_le, fun _ => exec_log_of_gt, fun _ => exec_log_of_zero,
    encode_eq_iff_decode_eq_ok.1 (by decide), rfl, rfl, fun v _ _ => toNat_logRom_le v, rfl⟩

end

section
/-!
PROOFS. The division function (40_gf_engine.md R146): each pivot multiplies by powers of 2, so it is
linear in the buffer (R152), and the pivots together subtract a multiple of the generator (R150).
-/

namespace Sys2Proof.Machine

/-! ## The product with a power of 2 -/

theorem gfDouble_xor (x y : Byte) : gfDouble (x ^^^ y) = gfDouble x ^^^ gfDouble y := by
  have carry : ∀ a b : Bool, (bif a ^^ b then (0x1D : Byte) else 0) =
      (bif a then 0x1D else 0) ^^^ (bif b then 0x1D else 0) := by decide
  simp only [gfDouble, BitVec.msb_xor, carry, BitVec.shiftLeft_xor_distrib]
  ac_rfl

theorem iterate_gfDouble_xor (e : Nat) (x y : Byte) :
    gfDouble^[e] (x ^^^ y) = gfDouble^[e] x ^^^ gfDouble^[e] y := by
  induction e with
  | zero => rfl
  | succ e ih => simp only [Function.iterate_succ_apply', ih, gfDouble_xor]

@[simp] theorem iterate_gfDouble_zero (e : Nat) : gfDouble^[e] 0 = 0 :=
  Function.iterate_fixed (by decide) e

/-- The powers of 2 have period 255. -/
theorem expRom_mod_succ (e : Nat) : expRom ((e + 1) % 255) = gfDouble (expRom (e % 255)) := by
  have hlt : e % 255 < 255 := Nat.mod_lt e (by decide)
  rw [← expRom_succ (by omega)]
  by_cases hlast : e % 255 = 254
  · rw [hlast, show (e + 1) % 255 = 0 by omega]
    rfl
  · rw [show (e + 1) % 255 = e % 255 + 1 by omega]

/-- The addition of exponents in R146 multiplies by a power of 2. -/
theorem expRom_add_logRom {c : Byte} (hc : c ≠ 0) (e : Nat) :
    expRom ((e + (logRom c.toNat).toNat) % 255) = gfDouble^[e] c := by
  induction e with
  | zero =>
    have hlog : (logRom c.toNat).toNat ≤ 254 := toNat_logRom_le _
    rw [Nat.zero_add, Nat.mod_eq_of_lt (by omega), expRom_logRom_byte hc, Function.iterate_zero, id]
  | succ e ih => rw [Nat.add_right_comm, expRom_mod_succ, ih, Function.iterate_succ_apply']

/-- Exponent 255 stands for exponent 0. -/
theorem toNat_logRom_expRom_mod {e : Nat} (h255 : e ≤ 255) :
    (logRom (expRom e).toNat).toNat % 255 = e % 255 := by
  obtain h254 | rfl : e ≤ 254 ∨ e = 255 := by omega
  · rw [toNat_logRom_expRom h254]
  · rfl

/-- The product with a power of 2, of a zero factor too. -/
theorem gfMul_expRom (c : Byte) {e : Nat} (h255 : e ≤ 255) :
    gfMul c (expRom e) = gfDouble^[e] c := by
  by_cases hc : c = 0
  · rw [gfMul, if_pos (.inl hc), hc, iterate_gfDouble_zero]
  · rw [gfMul, if_neg (not_or.2 ⟨hc, expRom_ne_zero h255⟩), ← expRom_add_logRom hc, Nat.add_comm,
      Nat.add_mod, toNat_logRom_expRom_mod h255, ← Nat.add_mod]

theorem gfMul_one (c : Byte) : gfMul c 1 = c := gfMul_expRom c (Nat.zero_le 255)

/-! ## Sums of polynomials -/

@[simp] theorem polyAdd_cons (a b : Byte) (p q : List Byte) :
    polyAdd (a :: p) (b :: q) = (a ^^^ b) :: polyAdd p q :=
  rfl

theorem length_polyAdd {p q : List Byte} (h : p.length = q.length) :
    (polyAdd p q).length = p.length := by
  simp [polyAdd, h]

theorem polyAdd_append {p q p' q' : List Byte} (h : p.length = q.length) :
    polyAdd (p ++ p') (q ++ q') = polyAdd p q ++ polyAdd p' q' :=
  List.zipWith_append h

theorem polyAdd_comm (p q : List Byte) : polyAdd p q = polyAdd q p :=
  List.zipWith_comm_of_comm BitVec.xor_comm

theorem polyAdd_assoc (p q r : List Byte) : polyAdd (polyAdd p q) r = polyAdd p (polyAdd q r) := by
  induction p generalizing q r with
  | nil => rfl
  | cons a p ih =>
    cases q with
    | nil => rfl
    | cons b q =>
      cases r with
      | nil => rfl
      | cons c r => simp only [polyAdd_cons, BitVec.xor_assoc, ih]

theorem polyAdd_self (p : List Byte) : polyAdd p p = List.replicate p.length 0 := by
  simp [polyAdd]

theorem polyAdd_zero (p : List Byte) : polyAdd p (List.replicate p.length 0) = p := by
  induction p with
  | nil => rfl
  | cons a p ih => simpa [List.replicate_succ] using ih

/-- A polynomial added twice cancels. -/
theorem polyAdd_cancel {p q : List Byte} (h : q.length = p.length) :
    polyAdd q (polyAdd p q) = p := by
  rw [polyAdd_comm p q, ← polyAdd_assoc, polyAdd_self, polyAdd_comm, h, polyAdd_zero]

theorem getElem?_polyAdd {p q : List Byte} (h : p.length = q.length) (t : Nat) :
    (polyAdd p q)[t]? = p[t]?.map (· ^^^ q.getD t 0) := by
  rw [polyAdd, List.getElem?_zipWith, List.getD_eq_getElem?_getD]
  by_cases ht : t < p.length
  · rw [List.getElem?_eq_getElem ht, List.getElem?_eq_getElem (h ▸ ht)]
    rfl
  · rw [List.getElem?_eq_none (not_lt.1 ht)]
    rfl

theorem getD_polyAdd {p q : List Byte} (h : p.length = q.length) (t : Nat) :
    (polyAdd p q).getD t 0 = p.getD t 0 ^^^ q.getD t 0 := by
  by_cases ht : t < p.length
  · simp [List.getD_eq_getElem?_getD, getElem?_polyAdd h, ht]
  · simp [List.getD_eq_getElem?_getD, getElem?_polyAdd h, ht, h ▸ ht]

/-! ## Linearity (40_gf_engine.md R152) -/

/-- One turn of the outer loop of R146, the skip of a zero coefficient said as a product. -/
theorem divPivot_getElem? (g buf : List Byte) (i t : Nat) :
    (divPivot g buf i)[t]? =
      if i ≤ t ∧ t < i + g.length then
        buf[t]?.map (· ^^^ gfDouble^[(g.getD (t - i) 0).toNat] (buf.getD i 0))
      else buf[t]? := by
  unfold divPivot
  dsimp only
  by_cases hc : buf.getD i 0 = 0
  · rw [hc, if_pos rfl, iterate_gfDouble_zero]
    simp
  · simp only [hc, if_false, divRow_getElem?, expRom_add_logRom hc]

theorem divPivot_polyAdd (g : List Byte) {b b' : List Byte} (h : b.length = b'.length) (i : Nat) :
    divPivot g (polyAdd b b') i = polyAdd (divPivot g b i) (divPivot g b' i) := by
  apply List.ext_getElem?
  intro t
  rw [divPivot_getElem?, getD_polyAdd h, iterate_gfDouble_xor]
  simp only [polyAdd, List.getElem?_zipWith, divPivot_getElem?]
  split
  · cases b[t]? with
    | none => rfl
    | some x =>
      cases b'[t]? with
      | none => rfl
      | some y => exact congrArg some (by dsimp only; ac_rfl)
  · rfl

theorem foldl_divPivot_polyAdd (g : List Byte) (is : List Nat) {b b' : List Byte}
    (h : b.length = b'.length) :
    is.foldl (divPivot g) (polyAdd b b') =
      polyAdd (is.foldl (divPivot g) b) (is.foldl (divPivot g) b') := by
  induction is generalizing b b' with
  | nil => rfl
  | cons i rest ih =>
    simp only [List.foldl_cons, divPivot_polyAdd g h]
    exact ih (by simp [h])

theorem divBuffer_polyAdd (g : List Byte) {m m' : List Byte} (h : m.length = m'.length) :
    divBuffer (polyAdd m m') g = polyAdd (divBuffer m g) (divBuffer m' g) := by
  have hpad : polyAdd m m' ++ List.replicate (g.length - 1) 0 =
      polyAdd (m ++ List.replicate (g.length - 1) 0) (m' ++ List.replicate (g.length - 1) 0) := by
    rw [polyAdd_append h, polyAdd_self, List.length_replicate]
  unfold divBuffer
  rw [hpad, length_polyAdd h, foldl_divPivot_polyAdd g _ (by simp [h]), h]

theorem div_polyAdd (g : List Byte) {m m' : List Byte} (h : m.length = m'.length) :
    div (polyAdd m m') g = polyAdd (div m g) (div m' g) := by
  unfold div
  rw [divBuffer_polyAdd g h, length_polyAdd h, ← h]
  exact List.drop_zipWith

/-- A message of zeros is the sum of itself and itself. -/
theorem div_replicate_zero (n : Nat) (g : List Byte) :
    div (List.replicate n 0) g = List.replicate (g.length - 1) 0 := by
  have hsum : polyAdd (List.replicate n 0) (List.replicate n 0) = List.replicate n (0 : Byte) := by
    rw [polyAdd_self, List.length_replicate]
  rw [← hsum, div_polyAdd g rfl, polyAdd_self, length_div]

/-! ## The outer loop as a recursion over the leading coefficient -/

/-- The outer loop of R146 over the first `n` positions of a buffer. -/
def divLoop (g : List Byte) (n : Nat) (buf : List Byte) : List Byte :=
  (List.range n).foldl (divPivot g) buf

theorem divBuffer_eq_divLoop (m g : List Byte) :
    divBuffer m g = divLoop g m.length (m ++ List.replicate (g.length - 1) 0) :=
  rfl

/-- A pivot right of the first cell works on the tail. -/
theorem divPivot_cons_succ (g : List Byte) (x : Byte) (b : List Byte) (i : Nat) :
    divPivot g (x :: b) (i + 1) = x :: divPivot g b i := by
  apply List.ext_getElem?
  intro t
  cases t with
  | zero =>
    rw [divPivot_getElem?, if_neg (by omega)]
    rfl
  | succ t =>
    rw [divPivot_getElem?, List.getElem?_cons_succ, List.getElem?_cons_succ, divPivot_getElem?,
      Nat.add_sub_add_right, List.getD_cons_succ]
    simp only [Nat.add_right_comm i 1, Nat.add_le_add_iff_right, Nat.add_lt_add_iff_right]

theorem foldl_divPivot_map_succ (g : List Byte) (is : List Nat) (x : Byte) (b : List Byte) :
    (is.map Nat.succ).foldl (divPivot g) (x :: b) = x :: is.foldl (divPivot g) b := by
  induction is generalizing b with
  | nil => rfl
  | cons i rest ih => rw [List.map_cons, List.foldl_cons, divPivot_cons_succ, ih, List.foldl_cons]

theorem divLoop_succ {g buf b : List Byte} {x : Byte} (h : divPivot g buf 0 = x :: b) (n : Nat) :
    divLoop g (n + 1) buf = x :: divLoop g n b := by
  rw [divLoop, List.range_succ_eq_map, List.foldl_cons, h, foldl_divPivot_map_succ, divLoop]

/-- The first pivot adds the generator times the leading coefficient. -/
theorem divPivot_zero_eq_polyAdd (g : List Byte) (c : Byte) (b : List Byte) {n : Nat}
    (h : (c :: b).length = g.length + n) :
    divPivot g (c :: b) 0 =
      polyAdd (c :: b) ((polyOfExponents g).map (gfMul c) ++ List.replicate n 0) := by
  have hlen : ((polyOfExponents g).map (gfMul c)).length = g.length := by simp [polyOfExponents]
  apply List.ext_getElem?
  intro t
  rw [divPivot_getElem?, getElem?_polyAdd (by simp [hlen, h])]
  by_cases ht : t < g.length
  · have hterm : gfMul c (expRom (g[t]).toNat) = gfDouble^[(g[t]).toNat] c :=
      gfMul_expRom c (by omega)
    rw [if_pos (by omega), List.getD_append _ _ _ _ (hlen ▸ ht)]
    simp [polyOfExponents, ht, hterm]
  · rw [if_neg (by omega), List.getD_append_right _ _ _ _ (by omega)]
    simp

/-- The head that the first pivot leaves. -/
theorem divPivot_zero_eq_cons (lead c : Byte) (gs b : List Byte) :
    ∃ b' : List Byte, b'.length = b.length ∧
      divPivot (lead :: gs) (c :: b) 0 = (c ^^^ gfMul c (expRom lead.toNat)) :: b' := by
  have hlen := length_divPivot (lead :: gs) (c :: b) 0
  obtain ⟨x, b', h⟩ := List.exists_cons_of_length_eq_add_one hlen
  have hhead := divPivot_getElem? (lead :: gs) (c :: b) 0 0
  rw [h] at hlen hhead ⊢
  refine ⟨b', by simpa using hlen, ?_⟩
  rw [gfMul_expRom c (by omega)]
  simpa using hhead

/-! ## The quotient (40_gf_engine.md R150) -/

/-- The quotient: the coefficient that each of the `n` pivots finds. -/
def divQuotient (g : List Byte) : Nat → List Byte → List Byte
  | 0, _ => []
  | n + 1, buf => buf.getD 0 0 :: divQuotient g n (divPivot g buf 0).tail

@[simp] theorem length_divQuotient (g : List Byte) (n : Nat) (buf : List Byte) :
    (divQuotient g n buf).length = n := by
  induction n generalizing buf with
  | zero => rfl
  | succ n ih => simp [divQuotient, ih]

@[simp] theorem length_polyOfExponents (g : List Byte) : (polyOfExponents g).length = g.length :=
  List.length_map _

theorem length_polyMul (q : List Byte) {p : List Byte} (hp : p ≠ []) :
    (polyMul q p).length = q.length + (p.length - 1) := by
  have hpos : 0 < p.length := List.length_pos_iff.2 hp
  induction q with
  | nil => simp [polyMul]
  | cons c rest ih =>
    have hsum : (p.map (gfMul c) ++ List.replicate rest.length 0).length =
        ((0 : Byte) :: polyMul rest p).length := by
      simp only [List.length_append, List.length_map, List.length_replicate, List.length_cons, ih]
      omega
    rw [polyMul, length_polyAdd hsum, List.length_append, List.length_map, List.length_replicate,
      List.length_cons]
    omega

/-- The loop adds the quotient times the generator to the buffer. -/
theorem divLoop_eq_polyAdd (lead : Byte) (gs : List Byte) (n : Nat) {buf : List Byte}
    (h : buf.length = n + gs.length) :
    divLoop (lead :: gs) n buf =
      polyAdd buf (polyMul (divQuotient (lead :: gs) n buf) (polyOfExponents (lead :: gs))) := by
  induction n generalizing buf with
  | zero =>
    have hlen : (polyOfExponents (lead :: gs)).length - 1 = buf.length := by simp [h]
    rw [divQuotient, polyMul, hlen, polyAdd_zero]
    rfl
  | succ n ih =>
    obtain ⟨c, b, rfl⟩ := List.exists_cons_of_length_eq_add_one (h.trans (Nat.add_right_comm _ _ _))
    obtain ⟨b', hlen, hb'⟩ := divPivot_zero_eq_cons lead c gs b
    have hpivot := divPivot_zero_eq_polyAdd (lead :: gs) c b (n := n)
      (by rw [h, List.length_cons]; omega)
    rw [List.length_cons] at h
    generalize c ^^^ gfMul c (expRom lead.toNat) = x at hb'
    generalize polyOfExponents (lead :: gs) = p at ih hpivot ⊢
    calc divLoop (lead :: gs) (n + 1) (c :: b)
        = x :: polyAdd b' (polyMul (divQuotient (lead :: gs) n b') p) := by
          rw [divLoop_succ hb', ih (by omega)]
      _ = polyAdd (x :: b') (0 :: polyMul (divQuotient (lead :: gs) n b') p) := by simp
      _ = polyAdd (c :: b) (polyMul (divQuotient (lead :: gs) (n + 1) (c :: b)) p) := by
          rw [← hb', hpivot, polyAdd_assoc, divQuotient, polyMul, length_divQuotient, hb']
          rfl

/-- A generator with leading coefficient 1 clears the cell of every pivot. -/
theorem take_divLoop {lead : Byte} (hlead : expRom lead.toNat = 1) (gs : List Byte) (n : Nat)
    {buf : List Byte} (h : buf.length = n + gs.length) :
    (divLoop (lead :: gs) n buf).take n = List.replicate n 0 := by
  induction n generalizing buf with
  | zero => rfl
  | succ n ih =>
    obtain ⟨c, b, rfl⟩ := List.exists_cons_of_length_eq_add_one (h.trans (Nat.add_right_comm _ _ _))
    obtain ⟨b', hlen, hb'⟩ := divPivot_zero_eq_cons lead c gs b
    rw [hlead, gfMul_one, BitVec.xor_self] at hb'
    rw [List.length_cons] at h
    rw [divLoop_succ hb', List.take_succ_cons, ih (by omega)]
    rfl

/-- After the last pivot the message cells are 0, and the remainder follows them. -/
theorem divBuffer_eq_zeros_append {lead : Byte} (hlead : expRom lead.toNat = 1) (m gs : List Byte) :
    divBuffer m (lead :: gs) = List.replicate m.length 0 ++ div m (lead :: gs) := by
  have hzeros : (divBuffer m (lead :: gs)).take m.length = List.replicate m.length 0 :=
    take_divLoop hlead gs m.length (by simp)
  rw [← hzeros, div, List.take_append_drop]

/-- The padded message is a multiple of the generator plus what the division leaves in the buffer,
whatever the leading coefficient. -/
theorem divBuffer_exists_quotient (m : List Byte) (lead : Byte) (gs : List Byte) :
    ∃ q : List Byte, q.length = m.length ∧
      polyAdd (polyMul q (polyOfExponents (lead :: gs))) (divBuffer m (lead :: gs)) =
        m ++ List.replicate gs.length 0 := by
  have hlen : (m ++ List.replicate gs.length 0).length = m.length + gs.length := by simp
  refine ⟨_, length_divQuotient (lead :: gs) m.length (m ++ List.replicate gs.length 0), ?_⟩
  have hloop := divLoop_eq_polyAdd lead gs m.length hlen
  rw [divBuffer_eq_divLoop, List.length_cons, Nat.add_sub_cancel, hloop, polyAdd_cancel]
  rw [length_polyMul _ (by simp [polyOfExponents]), length_divQuotient, hlen, length_polyOfExponents,
    List.length_cons, Nat.add_sub_cancel]

end Sys2Proof.Machine

open Sys2Proof Sys2Proof.Machine

/-- Settles O37: the buffer ends as the padded message plus the quotient times the generator, and its
message cells are cleared. -/
theorem divideIsPolynomialRemainder : Obligations.DivideIsPolynomialRemainder := by
  intro m g lead hhead hlead
  obtain ⟨gs, rfl⟩ := List.head?_eq_some_iff.1 hhead
  have hone : expRom lead.toNat = 1 := by obtain rfl | rfl := hlead <;> rfl
  rw [← divBuffer_eq_zeros_append hone]
  exact ⟨length_div _ _, divBuffer_exists_quotient m lead gs⟩

/-- Settles O39: every pivot is linear in the buffer. -/
theorem divideLinear : Obligations.DivideLinear := fun _ _ g => div_polyAdd g

end

section
/-!
PROOFS. DIVIDE as a command (40_gf_engine.md R146): the range checks in numbers (20_memory.md R87, R88),
the checks in their order (60_exceptions.md R273), and the end of the command.
-/

namespace Sys2Proof.Machine

/-! ## The range checks in numbers -/

theorem Range.overlaps_eq_false_iff {a b : Range} :
    a.overlaps b = false ↔ Apart a.base a.len b.base b.len := by
  rw [← Bool.not_eq_true, Range.overlaps_iff, Apart]
  omega

theorem Range.overlaps_iff_not_apart {a b : Range} :
    a.overlaps b = true ↔ ¬ Apart a.base a.len b.base b.len := by
  rw [← Range.overlaps_eq_false_iff, Bool.not_eq_false]

theorem checkedRanges_of_outside {r : Ranges}
    (h : 8192 < r.source.base + r.source.len ∨ 8192 < r.generator.base + r.generator.len ∨
      8192 < r.dest.base + r.dest.len) : checkedRanges r = .error .range := by
  rw [checkedRanges, if_pos]
  simp only [Range.inBounds_iff]
  omega

section
variable {r : Ranges} (hsource : r.source.base + r.source.len ≤ 8192)
  (hgen : r.generator.base + r.generator.len ≤ 8192) (hdest : r.dest.base + r.dest.len ≤ 8192)
include hsource hgen hdest

theorem checkedRanges_of_not_apart
    (h : ¬ Apart r.dest.base r.dest.len r.source.base r.source.len ∨
      ¬ Apart r.dest.base r.dest.len r.generator.base r.generator.len) :
    checkedRanges r = .error .overlap := by
  rw [← Range.overlaps_iff_not_apart, ← Range.overlaps_iff_not_apart] at h
  have hbounds : r.source.inBounds ∧ r.generator.inBounds ∧ r.dest.inBounds :=
    ⟨Range.inBounds_iff.2 hsource, Range.inBounds_iff.2 hgen, Range.inBounds_iff.2 hdest⟩
  rw [checkedRanges, if_neg (not_not.2 hbounds), if_pos h]

theorem checkedRanges_of_apart
    (hapart : Apart r.dest.base r.dest.len r.source.base r.source.len)
    (hapart' : Apart r.dest.base r.dest.len r.generator.base r.generator.len) :
    checkedRanges r = .ok r :=
  checkedRanges_eq_ok.2 ⟨rfl, Range.inBounds_iff.2 hsource, Range.inBounds_iff.2 hgen,
    Range.inBounds_iff.2 hdest, Range.overlaps_eq_false_iff.2 hapart,
    Range.overlaps_eq_false_iff.2 hapart'⟩

end

/-! ## The checks of DIVIDE, each when it is the first to fail -/

/-- The ranges of DIVIDE before they are checked. -/
def State.divideOperands (s : State) : Ranges :=
  ⟨s.sourceRange, s.generatorRange, ⟨s.destAddr, s.generatorRange.len - 1⟩⟩

theorem divideRanges_of_badOperand {s : State} (hupper : s.destUpper ≠ 0) :
    divideRanges s = .error .badOperand :=
  if_pos hupper

section
variable {s : State} (hupper : s.destUpper = 0)
include hupper

theorem divideRanges_of_genEmpty (h0 : s.generatorRange.len = 0) :
    divideRanges s = .error .genEmpty := by
  rw [divideRanges, if_neg (not_not.2 hupper), if_pos h0]

theorem divideRanges_of_genTooLong (h31 : Config.genMaxLen < s.generatorRange.len) :
    divideRanges s = .error .genTooLong := by
  rw [divideRanges, if_neg (not_not.2 hupper), if_neg (by omega), if_pos h31]

variable (h31 : s.generatorRange.len ≤ Config.genMaxLen)
include h31

theorem divideRanges_of_msgEmpty (h2 : 2 ≤ s.generatorRange.len) (hmsg : s.sourceRange.len = 0) :
    divideRanges s = .error .msgEmpty := by
  rw [divideRanges, if_neg (not_not.2 hupper), if_neg (by omega), if_neg (not_lt.2 h31),
    if_pos ⟨hmsg, by omega⟩]

theorem divideRanges_of_legal_lengths (h1 : 1 ≤ s.generatorRange.len)
    (hmsg : 1 ≤ s.sourceRange.len ∨ s.generatorRange.len = 1) :
    divideRanges s = checkedRanges s.divideOperands := by
  rw [divideRanges, if_neg (not_not.2 hupper), if_neg (by omega), if_neg (not_lt.2 h31),
    if_neg (by omega), State.divideOperands]

end

/-! ## The end of DIVIDE -/

theorem exec_divide_of_error {s : State} {c : Cause} (h : divideRanges s = .error c) :
    exec .divide s = .next (s.faultEntry (causeCode c)) := by
  rw [exec, execDivide, h]
  rfl

theorem exec_divide_of_ok {s : State} {r : Ranges} {m g : List Byte} (h : divideRanges s = .ok r)
    (hg : s.cwram.readBytes r.generator.base r.generator.len = .ok g)
    (hm : s.cwram.readBytes r.source.base r.source.len = .ok m) :
    exec .divide s = .next (s.wroteAt r.dest.base (div m g) r.dest.len) := by
  rw [exec, execDivide, h, withRanges_ok, readThen_of_ok _ hg, readThen_of_ok _ hm]
  rfl

end Sys2Proof.Machine

open Sys2Proof Sys2Proof.Machine

/-- Settles O35: the checks pass, and both sources can be read. -/
theorem divideWritesRemainder : Obligations.DivideWritesRemainder := by
  intro s m g hupper h1 h31 hmsg hsource hgen hdest hapart hapart' hm hg
  have hranges : divideRanges s = .ok s.divideOperands := by
    rw [divideRanges_of_legal_lengths hupper h31 h1 hmsg]
    exact checkedRanges_of_apart hsource hgen hdest hapart hapart'
  exact exec_divide_of_ok hranges hg hm

/-- Settles O36: the first check to fail names the cause. -/
theorem divideFaultOrder : Obligations.DivideFaultOrder := by
  intro s
  refine ⟨fun hupper => ?_, fun hupper h0 => ?_, fun hupper h31 => ?_, fun hupper h2 h31 hmsg => ?_,
    fun hupper h1 h31 hmsg hout => ?_, fun hupper h1 h31 hmsg hsource hgen hdest hnot => ?_⟩
  · exact exec_divide_of_error (divideRanges_of_badOperand hupper)
  · exact exec_divide_of_error (divideRanges_of_genEmpty hupper h0)
  · exact exec_divide_of_error (divideRanges_of_genTooLong hupper h31)
  · exact exec_divide_of_error (divideRanges_of_msgEmpty hupper h31 h2 hmsg)
  · refine exec_divide_of_error (c := .range) ?_
    rw [divideRanges_of_legal_lengths hupper h31 h1 hmsg]
    exact checkedRanges_of_outside hout
  · refine exec_divide_of_error (c := .overlap) ?_
    rw [divideRanges_of_legal_lengths hupper h31 h1 (.inl hmsg)]
    exact checkedRanges_of_not_apart hsource hgen hdest hnot

/-- Settles O38: linearity gives the remainder of zeros, and the checks give the fault. -/
theorem divideZeroMessage : Obligations.DivideZeroMessage :=
  ⟨div_replicate_zero, fun _ hupper h2 h31 hmsg =>
    exec_divide_of_error (divideRanges_of_msgEmpty hupper h31 h2 hmsg)⟩

end

section
/-!
PROOFS. Noninterference (40_gf_engine.md R153, 43_mask_penalty.md R247, 20_memory.md R90): a command's
end depends on its latched operands and its source cells only.
-/

namespace Sys2Proof.Machine

/-! ## Ends and answers that agree -/

/-- What two ends of one command agree on: ENG, and RESULT and the cells of the destination `d`, or
FCAUSE. -/
structure EndAlike (d : Range) (t₁ t₂ : State) : Prop where
  eng : t₂.eng = t₁.eng
  completed : t₁.eng = .idle →
    t₂.result = t₁.result ∧ ∀ a, d.contains a = true → t₂.cwram.read a = t₁.cwram.read a
  faulted : t₁.eng = .faulted → t₂.fcause = t₁.fcause

/-- When the first answer is a next state, so is the second, and they are ends alike. -/
def AnswersAlike (d : Range) (o₁ o₂ : Answer) : Prop :=
  ∀ t₁, o₁ = .next t₁ → ∃ t₂, o₂ = .next t₂ ∧ EndAlike d t₁ t₂

theorem EndAlike.answersAlike {d : Range} {t₁ t₂ : State} (h : EndAlike d t₁ t₂) :
    AnswersAlike d (.next t₁) (.next t₂) := by
  rintro _ ⟨⟩
  exact ⟨t₂, rfl, h⟩

section
variable {s₁ s₂ : State}

theorem raiseFault_answersAlike (d : Range) (c : Cause) :
    AnswersAlike d (.next (s₁.raiseFault c)) (.next (s₂.raiseFault c)) :=
  EndAlike.answersAlike
    { eng := rfl, completed := fun h => (by cases h), faulted := fun _ => rfl }

/-- Bytes that fill the destination read back, whatever lay there. -/
theorem completeWrite_answersAlike {d : Range} {bs : List Byte} (hlen : bs.length = d.len)
    (w : Word) :
    AnswersAlike d (.next (s₁.completeWrite d.base bs w)) (.next (s₂.completeWrite d.base bs w)) := by
  refine EndAlike.answersAlike
    { eng := rfl, completed := fun _ => ⟨rfl, fun a ha => ?_⟩, faulted := fun h => by cases h }
  obtain ⟨hle, hlt⟩ := Range.contains_iff.1 ha
  obtain ⟨i, rfl⟩ := Nat.exists_eq_add_of_le hle
  have hi : i < bs.length := by omega
  rw [State.completeWrite_cwram, State.completeWrite_cwram,
    Memory.read_writeBytes_of_inside _ _ _ _ hi, Memory.read_writeBytes_of_inside _ _ _ _ hi]

/-! ## The shared operations of a command -/

/-- `complete` is `completeWrite` of no byte. -/
theorem finish_answersAlike {r₁ r₂ : Except Cause Word} (hr : r₁ = r₂) :
    AnswersAlike Range.empty (finish s₁ r₁) (finish s₂ r₂) := by
  subst hr
  cases r₁ with
  | error c => exact raiseFault_answersAlike Range.empty c
  | ok w => exact completeWrite_answersAlike (d := Range.empty) (bs := []) rfl w

/-- Memories that agree on the cells of a range answer the same bytes, or the same undefined cell. -/
theorem Memory.readBytes_congr {m m' : Memory} {r : Range}
    (h : ∀ a, r.contains a = true → m.read a = m'.read a) :
    m.readBytes r.base r.len = m'.readBytes r.base r.len := by
  obtain ⟨base, len⟩ := r
  simp only [Range.contains_iff] at h
  induction len generalizing base with
  | zero => rfl
  | succ n ih =>
    rw [Memory.readBytes, Memory.readBytes, h base (by omega), ih (base + 1) fun a ha => h a (by omega)]

theorem readThen_answersAlike {d r : Range} {k₁ k₂ : List Byte → Answer}
    (hcells : ∀ a, r.contains a = true → s₁.cwram.read a = s₂.cwram.read a)
    (hk : ∀ bs, bs.length = r.len → AnswersAlike d (k₁ bs) (k₂ bs)) :
    AnswersAlike d (readThen s₁ r k₁) (readThen s₂ r k₂) := by
  intro t₁ h
  obtain ⟨bs, hbs, h⟩ := readThen_eq_next.1 h
  rw [readThen_of_ok k₂ (Memory.readBytes_congr hcells ▸ hbs)]
  exact hk bs (Memory.readBytes_eq_ok.1 hbs).1 t₁ h

theorem withRanges_answersAlike {i : Instr} {k₁ k₂ : Ranges → Answer}
    (hranges : commandRanges i s₁ = commandRanges i s₂)
    (hk : ∀ r, commandRanges i s₁ = .ok r → AnswersAlike r.dest (k₁ r) (k₂ r)) :
    AnswersAlike (commandDest i s₁) (withRanges s₁ (commandRanges i s₁) k₁)
      (withRanges s₂ (commandRanges i s₂) k₂) := by
  rw [← hranges]
  cases hr : commandRanges i s₁ with
  | error c => exact raiseFault_answersAlike _ c
  | ok r =>
    rw [commandDest_of_ok hr]
    exact hk r hr

/-! ## The commands -/

variable (h0 : s₁.larg0 = s₂.larg0) (h1 : s₁.larg1 = s₂.larg1) (h2 : s₁.larg2 = s₂.larg2)
include h0 h1 h2

/-- The checks of a command read the latched operands only. -/
theorem commandRanges_congr (i : Instr) : commandRanges i s₁ = commandRanges i s₂ := by
  have hsource : s₁.sourceRange = s₂.sourceRange := by rw [State.sourceRange, State.sourceRange, h0]
  have hgen : s₁.generatorRange = s₂.generatorRange := by
    rw [State.generatorRange, State.generatorRange, h1]
  have haddr : s₁.destAddr = s₂.destAddr := by rw [State.destAddr, State.destAddr, h2]
  have hupper : s₁.destUpper = s₂.destUpper := by rw [State.destUpper, State.destUpper, h2]
  cases i with
  | divide => simp only [commandRanges, divideRanges, hsource, hgen, haddr, hupper]
  | rsenc => simp only [commandRanges, rsencRanges, hsource, haddr, hupper]
  | struct => simp only [commandRanges, structRanges, hsource, haddr, hupper]
  | getpoly => simp only [commandRanges, getpolyRanges, haddr, hupper]
  | _ => rfl

theorem exec_answersAlike {i : Instr} (hcells : ∀ r, commandRanges i s₁ = .ok r →
    ∀ a, (r.source.contains a || r.generator.contains a) = true →
      s₁.cwram.read a = s₂.cwram.read a) :
    AnswersAlike (commandDest i s₁) (exec i s₁) (exec i s₂) := by
  have hoperand : s₁.operand = s₂.operand := by rw [State.operand, State.operand, h0]
  have hranges := commandRanges_congr h0 h1 h2 i
  have hsource : ∀ r, commandRanges i s₁ = .ok r → ∀ a, r.source.contains a = true →
      s₁.cwram.read a = s₂.cwram.read a := fun r hr a ha => hcells r hr a (by simp [ha])
  have hgen : ∀ r, commandRanges i s₁ = .ok r → ∀ a, r.generator.contains a = true →
      s₁.cwram.read a = s₂.cwram.read a := fun r hr a ha => hcells r hr a (by simp [ha])
  cases i with
  | divide =>
    refine withRanges_answersAlike hranges fun r hr => ?_
    refine readThen_answersAlike (hgen r hr) fun g hg => ?_
    refine readThen_answersAlike (hsource r hr) fun m _ => completeWrite_answersAlike ?_ _
    rw [length_div, hg, divideRanges_eq_ok hr]
  | rsenc ver ecl =>
    refine withRanges_answersAlike hranges fun r hr => ?_
    refine readThen_answersAlike (hsource r hr) fun m _ => completeWrite_answersAlike ?_ _
    rw [length_div, rsencRanges_eq_ok hr, length_genRom (eccRow_ect_le _ _), Nat.add_sub_cancel]
  | struct ver ecl =>
    refine withRanges_answersAlike hranges fun r hr => ?_
    refine readThen_answersAlike (hsource r hr) fun d _ => completeWrite_answersAlike ?_ _
    rw [length_structured, structRanges_eq_ok hr]
  | getpoly ver ecl =>
    refine withRanges_answersAlike hranges fun r hr => completeWrite_answersAlike ?_ _
    rw [getpolyRanges_eq_ok hr, Nat.add_sub_cancel, length_genRom (eccRow_ect_le _ _)]
  | exp => exact finish_answersAlike (by rw [expResult, expResult, hoperand])
  | log => exact finish_answersAlike (by rw [logResult, logResult, hoperand])
  | pscore => exact finish_answersAlike (by rw [pscoreResult, pscoreResult, hoperand])
  | trail => exact finish_answersAlike (by rw [trailResult, trailResult, hoperand])
  | fmtinfo => exact finish_answersAlike (r₁ := .ok _) rfl
  | _ => exact finish_answersAlike rfl

end

end Sys2Proof.Machine

open Sys2Proof Sys2Proof.Machine

/-- Settles O18: the checks and the operand are functions of the latch, the bytes read are those of
the source cells, and the bytes written fill the destination. -/
theorem commandsDependOnlyOnOperands : Obligations.CommandsDependOnlyOnOperands := by
  intro i s₁ s₂ t₁ h0 h1 h2 hcells h
  obtain ⟨t₂, ht₂, heng, hcompleted, hfaulted⟩ := exec_answersAlike h0 h1 h2 hcells t₁ h
  exact ⟨t₂, ht₂, heng, hcompleted, hfaulted⟩

end

section
/-!
PROOFS. GF(256) and its polynomials: the product of the field (00_scope.md R11), evaluation as a ring
homomorphism, the generators as the product of their linear factors, and the roots of every codeword
(41_tables.md R184).
-/

namespace Sys2Proof.Machine

/-! ## The product of the field -/

theorem gfMul_comm (x y : Byte) : gfMul x y = gfMul y x := by
  simp only [gfMul, or_comm, Nat.add_comm]

@[simp] theorem zero_gfMul (y : Byte) : gfMul 0 y = 0 := if_pos (.inl rfl)

@[simp] theorem gfMul_zero (x : Byte) : gfMul x 0 = 0 := if_pos (.inr rfl)

/-- A product with a nonzero byte is a repeated doubling. -/
theorem gfMul_eq_iterate (x : Byte) {y : Byte} (hy : y ≠ 0) :
    gfMul x y = gfDouble^[(logRom y.toNat).toNat] x := by
  have hlog : (logRom y.toNat).toNat ≤ 255 := (toNat_logRom_le _).trans (by decide)
  rw [← gfMul_expRom x hlog, expRom_logRom_byte hy]

theorem xor_gfMul (x y z : Byte) : gfMul (x ^^^ y) z = gfMul x z ^^^ gfMul y z := by
  obtain rfl | hz := eq_or_ne z 0
  · simp only [gfMul_zero]
    decide
  · simp only [gfMul_eq_iterate _ hz, iterate_gfDouble_xor]

theorem gfMul_right_comm (x y z : Byte) : gfMul (gfMul x y) z = gfMul (gfMul x z) y := by
  obtain rfl | hy := eq_or_ne y 0
  · simp only [gfMul_zero, zero_gfMul]
  obtain rfl | hz := eq_or_ne z 0
  · simp only [gfMul_zero, zero_gfMul]
  · simp only [gfMul_eq_iterate _ hy, gfMul_eq_iterate _ hz, ← Function.iterate_add_apply,
      Nat.add_comm]

/-! ## Evaluation from a carried value -/

/-- Horner's rule from the value `acc` of the coefficients already read. -/
def hornerFrom (acc : Byte) (p : List Byte) (x : Byte) : Byte :=
  p.foldl (fun acc c => gfMul acc x ^^^ c) acc

theorem polyEval_eq_hornerFrom (p : List Byte) (x : Byte) : polyEval p x = hornerFrom 0 p x := rfl

@[simp] theorem hornerFrom_nil (acc x : Byte) : hornerFrom acc [] x = acc := rfl

@[simp] theorem hornerFrom_cons (acc c : Byte) (p : List Byte) (x : Byte) :
    hornerFrom acc (c :: p) x = hornerFrom (gfMul acc x ^^^ c) p x := rfl

theorem hornerFrom_cons_zero (acc : Byte) (p : List Byte) (x : Byte) :
    hornerFrom acc (0 :: p) x = hornerFrom (gfMul acc x) p x :=
  congrArg (hornerFrom · p x) BitVec.xor_zero

theorem hornerFrom_append (acc : Byte) (p q : List Byte) (x : Byte) :
    hornerFrom acc (p ++ q) x = hornerFrom (hornerFrom acc p x) q x :=
  List.foldl_append

theorem hornerFrom_polyAdd (a b : Byte) {p q : List Byte} (h : p.length = q.length) (x : Byte) :
    hornerFrom (a ^^^ b) (polyAdd p q) x = hornerFrom a p x ^^^ hornerFrom b q x := by
  induction p generalizing q a b with
  | nil =>
    obtain rfl := List.length_eq_zero_iff.1 h.symm
    rfl
  | cons c p ih =>
    obtain ⟨d, q, rfl⟩ := List.exists_cons_of_length_eq_add_one h.symm
    rw [polyAdd_cons, hornerFrom_cons, hornerFrom_cons, hornerFrom_cons, ← ih _ _ (by simpa using h),
      xor_gfMul]
    congr 1
    ac_rfl

/-- Evaluation commutes with a factor, the carried value scaled too. -/
theorem hornerFrom_map_gfMul (c acc : Byte) (p : List Byte) (x : Byte) :
    hornerFrom (gfMul c acc) (p.map (gfMul c)) x = gfMul c (hornerFrom acc p x) := by
  induction p generalizing acc with
  | nil => rfl
  | cons a p ih =>
    rw [List.map_cons, hornerFrom_cons, hornerFrom_cons, ← ih, gfMul_comm c (_ ^^^ _), xor_gfMul,
      gfMul_comm c acc, gfMul_comm c a, gfMul_right_comm acc c x]

/-- A factor of the carried value passes through trailing zeros, which multiply by powers of `x`. -/
theorem hornerFrom_zeros (acc y : Byte) (n : Nat) (x : Byte) :
    hornerFrom (gfMul acc y) (List.replicate n 0) x =
      gfMul (hornerFrom acc (List.replicate n 0) x) y := by
  induction n generalizing acc with
  | zero => rfl
  | succ n ih =>
    rw [List.replicate_succ, hornerFrom_cons_zero, hornerFrom_cons_zero, gfMul_right_comm, ih]

theorem polyEval_zeros (n : Nat) (x : Byte) : polyEval (List.replicate n 0) x = 0 := by
  induction n with
  | zero => rfl
  | succ n ih => rwa [List.replicate_succ, polyEval_eq_hornerFrom, hornerFrom_cons_zero, zero_gfMul]

/-- The leading coefficient times its power of `x`, plus the other terms. -/
theorem hornerFrom_eq_zeros_xor (acc : Byte) (p : List Byte) (x : Byte) :
    hornerFrom acc p x = hornerFrom acc (List.replicate p.length 0) x ^^^ polyEval p x := by
  have hacc : acc ^^^ 0 = acc := BitVec.xor_zero
  have hsum := hornerFrom_polyAdd acc 0 (List.length_replicate (n := p.length) (a := (0 : Byte))) x
  rwa [polyAdd_comm, polyAdd_zero, hacc] at hsum

/-! ## Evaluation is a homomorphism -/

theorem polyEval_polyAdd {p q : List Byte} (h : p.length = q.length) (x : Byte) :
    polyEval (polyAdd p q) x = polyEval p x ^^^ polyEval q x :=
  hornerFrom_polyAdd 0 0 h x

@[simp] theorem polyEval_cons (c : Byte) (p : List Byte) (x : Byte) :
    polyEval (c :: p) x = hornerFrom c p x := by
  have hlead : gfMul 0 x ^^^ c = c := by rw [zero_gfMul]; exact BitVec.zero_xor
  rw [polyEval_eq_hornerFrom, hornerFrom_cons, hlead]

theorem polyEval_polyMul (q : List Byte) {p : List Byte} (hp : p ≠ []) (x : Byte) :
    polyEval (polyMul q p) x = gfMul (polyEval q x) (polyEval p x) := by
  induction q with
  | nil => exact (polyEval_zeros _ x).trans (zero_gfMul _).symm
  | cons c rest ih =>
    have hlen : (p.map (gfMul c) ++ List.replicate rest.length 0).length =
        ((0 : Byte) :: polyMul rest p).length := by
      have hpos : 0 < p.length := List.length_pos_iff.2 hp
      simp only [List.length_append, List.length_map, List.length_replicate, List.length_cons,
        length_polyMul rest hp]
      omega
    have hscaled : polyEval (p.map (gfMul c)) x = gfMul c (polyEval p x) := by
      rw [polyEval_eq_hornerFrom, ← gfMul_zero c, hornerFrom_map_gfMul]
      rfl
    calc polyEval (polyMul (c :: rest) p) x
        = hornerFrom (gfMul c (polyEval p x)) (List.replicate rest.length 0) x ^^^
            gfMul (polyEval rest x) (polyEval p x) := by
          rw [polyMul, polyEval_polyAdd hlen, polyEval_eq_hornerFrom, hornerFrom_append,
            ← polyEval_eq_hornerFrom, hscaled, polyEval_cons, ← polyEval_eq_hornerFrom, ih]
      _ = gfMul (polyEval (c :: rest) x) (polyEval p x) := by
          rw [hornerFrom_zeros, ← xor_gfMul, ← hornerFrom_eq_zeros_xor, polyEval_cons]

/-! ## The generators (41_tables.md R183, R184) -/

/-- The polynomial of slot `k`. -/
def genPoly (k : Nat) : List Byte := polyOfExponents (genRom k)

theorem genPoly_ne_nil {k : Nat} (hk : k ≤ 30) : genPoly k ≠ [] := by
  rw [← List.length_pos_iff, genPoly, length_polyOfExponents, length_genRom hk]
  exact Nat.succ_pos k

theorem genRom_head : ∀ k ≤ 30, (genRom k).head? = some 0 := by decide +kernel

/-- Each slot has the linear factor x - α^k more than the slot before it. -/
theorem genPoly_succ : ∀ k < 30, genPoly (k + 1) = polyMul (genPoly k) [1, expRom k] := by
  decide +kernel

theorem polyEval_linearFactor (x : Byte) : polyEval [1, x] x = 0 := by
  rw [polyEval_cons, hornerFrom_cons, hornerFrom_nil, gfMul_comm, gfMul_one, BitVec.xor_self]
  rfl

theorem genPoly_root {k i : Nat} (hk : k ≤ 30) (hi : i < k) :
    polyEval (genPoly k) (expRom i) = 0 := by
  induction k with
  | zero => omega
  | succ k ih =>
    rw [genPoly_succ k hk, polyEval_polyMul _ (List.cons_ne_nil _ _)]
    obtain hlt | rfl := Nat.lt_succ_iff_lt_or_eq.1 hi
    · rw [ih (by omega) hlt, zero_gfMul]
    · rw [polyEval_linearFactor, gfMul_zero]

/-! ## The codewords (40_gf_engine.md R150) -/

/-- A message followed by its remainder is a multiple of a generator with leading coefficient 1. -/
theorem codeword_exists_quotient (m : List Byte) {g : List Byte} (h : g.head? = some 0) :
    ∃ q : List Byte, m ++ div m g = polyMul q (polyOfExponents g) := by
  obtain ⟨hlen, q, hq, hsum⟩ := divideIsPolynomialRemainder m g 0 h (.inl rfl)
  obtain ⟨gs, rfl⟩ := List.head?_eq_some_iff.1 h
  refine ⟨q, ?_⟩
  have hlenMul : (List.replicate m.length 0 ++ div m (0 :: gs)).length =
      (polyMul q (polyOfExponents (0 :: gs))).length := by
    rw [length_polyMul _ (by simp [polyOfExponents]), length_polyOfExponents, hq, List.length_append,
      List.length_replicate, hlen]
  calc m ++ div m (0 :: gs)
      = polyAdd (List.replicate m.length 0 ++ div m (0 :: gs))
          (m ++ List.replicate ((0 :: gs).length - 1) 0) := by
        rw [polyAdd_append List.length_replicate, polyAdd_comm, polyAdd_zero, ← hlen, polyAdd_zero]
    _ = polyMul q (polyOfExponents (0 :: gs)) := by rw [← hsum, polyAdd_cancel hlenMul]

end Sys2Proof.Machine

open Sys2Proof Sys2Proof.Machine

/-- Settles O40: the slots are the products of the factors x - α^i. -/
theorem generatorRoots : Obligations.GeneratorRoots :=
  fun k hk => ⟨length_genRom hk, genRom_head k hk, fun _ => genPoly_root hk⟩

/-- Settles O41: the codeword is a multiple of the generator, which has these roots. -/
theorem codewordSyndromesVanish : Obligations.CodewordSyndromesVanish := by
  intro m k i hk hi
  obtain ⟨q, hq⟩ := codeword_exists_quotient m (genRom_head k hk)
  rw [hq, ← genPoly, polyEval_polyMul q (genPoly_ne_nil hk), genPoly_root hk hi, gfMul_zero]

end

section
/-!
PROOFS. The tables of 41_tables.md: the 160 rows (R176 to R179), the decoder's answer on a word of a
given row of the opcode map (30_encoding.md R113), and the commands that read one row or one width.
-/

namespace Sys2Proof

/-! ## Decoding by match and mask (30_encoding.md R113) -/

/-- Every row's mask covers OP. -/
theorem fieldOp_care : ∀ r ∈ opcodeRows, fieldOp r.care = 0xFF := by decide

/-- A word that agrees with a row under its mask decodes to what the row builds. -/
theorem decode_of_care {r : OpcodeRow} (hr : r ∈ opcodeRows) {w : Word}
    (h : w &&& r.care = r.pattern) : decode w = .ok (r.build w) := by
  have hop : fieldOp r.pattern = fieldOp w := by
    have hand : fieldOp (w &&& r.care) = fieldOp w &&& fieldOp r.care := BitVec.extractLsb'_and
    rw [← h, hand, fieldOp_care r hr]
    exact BitVec.and_allOnes
  exact decode_eq_ok_iff.2 ⟨r, rowOf_eq_some_iff.2 ⟨hr, hop⟩, h, rfl⟩

/-- The same with the row given by its place in the map, counted from 0. -/
theorem decode_of_getElem {n : Nat} {r : OpcodeRow} (hr : opcodeRows[n]? = some r) {w : Word}
    (h : w &&& r.care = r.pattern) : decode w = .ok (r.build w) :=
  decode_of_care (List.mem_of_getElem? hr) h

end Sys2Proof

namespace Sys2Proof.Machine

/-! ## The rows (41_tables.md R176) -/

/-- Every (version, ECL) has its row, and every row is one's. -/
theorem mem_eccTable_iff {row : EccRow} :
    row ∈ eccTable ↔ ∃ v e, 1 ≤ v ∧ v ≤ 40 ∧ eccRow v e = row := by
  have hlen : eccTable.length = 160 := rfl
  constructor
  · intro h
    obtain ⟨n, hn, rfl⟩ := List.mem_iff_getElem.1 h
    refine ⟨n / 4 + 1, Ecl.ofCode (BitVec.ofNat 2 n), by omega, by omega, ?_⟩
    have hindex : (n / 4 + 1 - 1) * 4 + (Ecl.ofCode (BitVec.ofNat 2 n)).code.toNat = n := by
      rw [Ecl.code_ofCode, BitVec.toNat_ofNat]
      omega
    rw [eccRow, hindex, List.getD_eq_getElem _ _ hn]
  · rintro ⟨v, e, h1, h40, rfl⟩
    have hcode : e.code.toNat < 4 := e.code.isLt
    rw [eccRow, List.getD_eq_getElem _ _ (by omega)]
    exact List.getElem_mem _

theorem eccRow_mem {v : Nat} (h1 : 1 ≤ v) (h40 : v ≤ 40) (e : Ecl) : eccRow v e ∈ eccTable :=
  mem_eccTable_iff.2 ⟨v, e, h1, h40, rfl⟩

/-- The thirteen ECT values (41_tables.md R179). -/
def ectValues : List Nat := [7, 10, 13, 15, 16, 17, 18, 20, 22, 24, 26, 28, 30]

theorem mem_ectValues_iff {k : Nat} : k ∈ ectValues ↔ ∃ row ∈ eccTable, row.ect = k := by
  have occur : ∀ k ∈ ectValues, ∃ row ∈ eccTable, row.ect = k := by decide +kernel
  have listed : ∀ row ∈ eccTable, row.ect ∈ ectValues := by decide +kernel
  exact ⟨occur k, fun ⟨row, hrow, hk⟩ => hk ▸ listed row hrow⟩

theorem eccTable_ect_bounds : ∀ row ∈ eccTable, 7 ≤ row.ect ∧ row.ect ≤ 30 := by
  have values : ∀ k ∈ ectValues, 7 ≤ k ∧ k ≤ 30 := by decide
  exact fun row hrow => values row.ect (mem_ectValues_iff.2 ⟨row, hrow, rfl⟩)

/-- The smallest and the largest number of data codewords (41_tables.md R170). -/
theorem eccTable_dcw_bounds : ∀ row ∈ eccTable, 9 ≤ row.dcw ∧ row.dcw ≤ 2956 := by
  decide +kernel

/-- The bounds of a block layout (41_tables.md R173). -/
theorem eccTable_layout_bounds : ∀ row ∈ eccTable,
    row.c1 ≤ 59 ∧ row.c2 ≤ 67 ∧ row.c1 + row.c2 ≤ 81 ∧ row.s1 ≤ 123 ∧ row.s2 ≤ 123 := by
  decide +kernel

/-- The sizes of group 2, of an absent one too (41_tables.md R177, R178). -/
theorem eccTable_group2 : ∀ row ∈ eccTable,
    (0 < row.c2 → row.s2 = row.s1 + 1) ∧ (row.c2 = 0 → row.s2 = 0) := by
  decide +kernel

/-! ## The check of VER (30_encoding.md R118) -/

section
variable {ver : BitVec 6}

theorem checkedRow_of_legal (h : 1 ≤ ver.toNat ∧ ver.toNat ≤ 40) (ecl : Ecl) :
    checkedRow ver ecl = .ok (eccRow ver.toNat ecl) :=
  if_pos (versionLegal_iff.2 h)

theorem checkedRow_of_illegal (h : ¬ (1 ≤ ver.toNat ∧ ver.toNat ≤ 40)) (ecl : Ecl) :
    checkedRow ver ecl = .error .badVersion :=
  if_neg (mt versionLegal_iff.1 h)

/-- The end of a command that reads a row (41_tables.md R170, R171, R173, R174). -/
theorem finish_rowResult_of_legal (h1 : 1 ≤ ver.toNat) (h40 : ver.toNat ≤ 40) (ecl : Ecl)
    (s : State) (f : EccRow → Word) :
    finish s (rowResult ver ecl f) = .next (s.complete (f (eccRow ver.toNat ecl))) := by
  rw [rowResult, checkedRow_of_legal ⟨h1, h40⟩]
  rfl

theorem finish_rowResult_of_illegal (h : ¬ (1 ≤ ver.toNat ∧ ver.toNat ≤ 40)) (ecl : Ecl)
    (s : State) (f : EccRow → Word) :
    finish s (rowResult ver ecl f) = .next (s.faultEntry 0x03) := by
  rw [rowResult, checkedRow_of_illegal h]
  rfl

/-! ## CCIB (41_tables.md R172) -/

theorem exec_ccib_of_mode (h1 : 1 ≤ ver.toNat) (h40 : ver.toNat ≤ 40) {mode : BitVec 2} {m : Mode}
    (hm : Mode.ofCode mode = some m) (s : State) :
    exec (.ccib ver mode) s = .next (s.resultIs (cciRom ver.toNat m)) := by
  rw [exec, execCcib, ccibResult, if_pos (versionLegal_iff.2 ⟨h1, h40⟩), hm]
  rfl

theorem exec_ccib_of_badMode (h1 : 1 ≤ ver.toNat) (h40 : ver.toNat ≤ 40) {mode : BitVec 2}
    (hm : Mode.ofCode mode = none) (s : State) :
    exec (.ccib ver mode) s = .next (s.faultEntry 0x04) := by
  rw [exec, execCcib, ccibResult, if_pos (versionLegal_iff.2 ⟨h1, h40⟩), hm]
  rfl

theorem exec_ccib_of_badVersion (h : ¬ (1 ≤ ver.toNat ∧ ver.toNat ≤ 40)) (mode : BitVec 2)
    (s : State) : exec (.ccib ver mode) s = .next (s.faultEntry 0x03) := by
  rw [exec, execCcib, ccibResult, if_neg (mt versionLegal_iff.1 h)]
  rfl

end

/-- The width of the band of `v` (41_tables.md R180). -/
theorem cciRom_of_row {m : Mode} {w1 w2 w3 : Nat} (h : cciRow m = [w1, w2, w3]) (v : Nat) :
    cciRom v m = if v ≤ 9 then w1 else if v ≤ 26 then w2 else w3 := by
  rw [cciRom, h, cciBand]
  split_ifs <;> rfl

/-! ## GROUPS (41_tables.md R173) -/

/-- The four bytes of GROUPS as one number. -/
theorem packGroups_eq {row : EccRow} (hrow : row ∈ eccTable) :
    packGroups row =
      BitVec.ofNat 32 (row.c1 + 256 * row.s1 + 65536 * row.c2 + 16777216 * row.s2) := by
  have hbounds := eccTable_layout_bounds row hrow
  apply BitVec.eq_of_toNat_eq
  simp only [packGroups, toNat_append_eq_add, BitVec.toNat_ofNat]
  omega

end Sys2Proof.Machine

open Sys2Proof Sys2Proof.Machine

/-- Settles O53: the rows are checked one by one, and every row is that of some version and level. -/
theorem eccTableInvariants : Obligations.EccTableInvariants := by
  refine ⟨fun v e h1 h40 => ⟨?_, eccTable_group2 _ (eccRow_mem h1 h40 e)⟩, fun k => ?_⟩
  · rw [eccRow_dcw_eq, Nat.mul_comm (eccRow v e).s1, Nat.mul_comm (eccRow v e).s2]
  · refine mem_ectValues_iff.trans ⟨?_, ?_⟩
    · rintro ⟨row, hrow, hk⟩
      obtain ⟨v, e, h1, h40, rfl⟩ := mem_eccTable_iff.1 hrow
      exact ⟨v, e, h1, h40, hk⟩
    · rintro ⟨v, e, h1, h40, hk⟩
      exact ⟨_, eccRow_mem h1 h40 e, hk⟩

/-- Settles O48: the end of a command that reads a row, with the DCW of the row. -/
theorem dcwReadsTable : Obligations.DcwReadsTable :=
  ⟨fun _ ecl s h1 h40 => finish_rowResult_of_legal h1 h40 ecl s _,
    fun _ ecl s h => finish_rowResult_of_illegal h ecl s _,
    fun _ e h1 h40 => eccTable_dcw_bounds _ (eccRow_mem h1 h40 e), rfl, rfl,
    fun _ => decode_of_getElem (n := 5) rfl, encode_eq_iff_decode_eq_ok.1 (by decide), rfl⟩

/-- Settles O49: the end of a command that reads a row, with eight times the DCW of the row. -/
theorem dbitsReadsTable : Obligations.DbitsReadsTable := by
  refine ⟨fun _ ecl s h1 h40 => finish_rowResult_of_legal h1 h40 ecl s _,
    fun _ ecl s h => finish_rowResult_of_illegal h ecl s _, fun v e h1 h40 => ?_, rfl,
    fun _ => decode_of_getElem (n := 6) rfl, encode_eq_iff_decode_eq_ok.1 (by decide), rfl⟩
  obtain ⟨-, hle⟩ := eccTable_dcw_bounds _ (eccRow_mem h1 h40 e)
  omega

/-- Settles O50: the check of VER before the mode, and the width in the mode's row at the band. -/
theorem ccibReadsWidth : Obligations.CcibReadsWidth := by
  refine ⟨fun ver mode s w1 w2 w3 h1 h40 hmem => ?_,
    fun ver s h1 h40 => exec_ccib_of_badMode h1 h40 rfl s,
    fun ver mode s h => exec_ccib_of_badVersion h mode s,
    fun _ => decode_of_getElem (n := 7) rfl, encode_eq_iff_decode_eq_ok.1 (by decide)⟩
  obtain ⟨m, hm, hrow⟩ : ∃ m, Mode.ofCode mode = some m ∧ cciRow m = [w1, w2, w3] := by
    simp only [List.mem_cons, Prod.mk.injEq, List.not_mem_nil, or_false] at hmem
    obtain ⟨rfl, rfl, rfl, rfl⟩ | ⟨rfl, rfl, rfl, rfl⟩ | ⟨rfl, rfl, rfl, rfl⟩ := hmem
    exacts [⟨.numeric, rfl, rfl⟩, ⟨.alphanumeric, rfl, rfl⟩, ⟨.byte, rfl, rfl⟩]
  rw [exec_ccib_of_mode h1 h40 hm, cciRom_of_row hrow]

/-- Settles O51: the bytes of the row's layout as one number. -/
theorem groupsPacksLayout : Obligations.GroupsPacksLayout := by
  refine ⟨fun ver ecl s row h1 h40 hrow => ?_, fun _ ecl s h => finish_rowResult_of_illegal h ecl s _,
    fun _ e h1 h40 => eccTable_layout_bounds _ (eccRow_mem h1 h40 e),
    fun _ e h1 h40 => (eccTable_group2 _ (eccRow_mem h1 h40 e)).2,
    fun _ => decode_of_getElem (n := 8) rfl, encode_eq_iff_decode_eq_ok.1 (by decide), rfl, rfl⟩
  subst hrow
  rw [State.resultIs, ← packGroups_eq (eccRow_mem h1 h40 ecl)]
  exact finish_rowResult_of_legal h1 h40 ecl s _

/-- Settles O52: the end of a command that reads a row, with the ECT of the row. -/
theorem ectReadsTable : Obligations.EctReadsTable :=
  ⟨fun _ ecl s h1 h40 => finish_rowResult_of_legal h1 h40 ecl s _,
    fun _ ecl s h => finish_rowResult_of_illegal h ecl s _,
    fun _ e h1 h40 => mem_ectValues_iff.2 ⟨_, eccRow_mem h1 h40 e, rfl⟩, rfl,
    fun _ => decode_of_getElem (n := 9) rfl, encode_eq_iff_decode_eq_ok.1 (by decide), rfl⟩

end

section
/-!
PROOFS. GETPOLY as a command (41_tables.md R175): its checks in their order (60_exceptions.md R273) and
its end.
-/

namespace Sys2Proof.Machine

section
variable {ver : BitVec 6}

/-! ## The checks, each when it is the first to fail -/

theorem getpolyRanges_of_badVersion (h : ¬ (1 ≤ ver.toNat ∧ ver.toNat ≤ 40)) (ecl : Ecl)
    (s : State) : getpolyRanges ver ecl s = .error .badVersion := by
  rw [getpolyRanges, checkedRow_of_illegal h]

variable (h1 : 1 ≤ ver.toNat) (h40 : ver.toNat ≤ 40) {s : State}
include h1 h40

theorem getpolyRanges_of_badOperand (hupper : s.destUpper ≠ 0) (ecl : Ecl) :
    getpolyRanges ver ecl s = .error .badOperand := by
  rw [getpolyRanges, checkedRow_of_legal ⟨h1, h40⟩]
  exact if_pos hupper

variable (hupper : s.destUpper = 0)
include hupper

theorem getpolyRanges_of_legal (ecl : Ecl) : getpolyRanges ver ecl s =
    checkedRanges ⟨Range.empty, Range.empty, ⟨s.destAddr, (eccRow ver.toNat ecl).ect + 1⟩⟩ := by
  rw [getpolyRanges, checkedRow_of_legal ⟨h1, h40⟩]
  exact if_neg (not_not.2 hupper)

theorem getpolyRanges_of_outside {ecl : Ecl}
    (hout : 8192 < s.destAddr + (eccRow ver.toNat ecl).ect + 1) :
    getpolyRanges ver ecl s = .error .range := by
  rw [getpolyRanges_of_legal h1 h40 hupper]
  exact checkedRanges_of_outside (.inr (.inr hout))

theorem getpolyRanges_of_inBounds {ecl : Ecl}
    (hin : s.destAddr + (eccRow ver.toNat ecl).ect + 1 ≤ 8192) : getpolyRanges ver ecl s =
      .ok ⟨Range.empty, Range.empty, ⟨s.destAddr, (eccRow ver.toNat ecl).ect + 1⟩⟩ := by
  rw [getpolyRanges_of_legal h1 h40 hupper]
  exact checkedRanges_of_apart (Nat.zero_le _) (Nat.zero_le _) hin (.inr (.inl rfl)) (.inr (.inl rfl))

end

/-! ## The end of GETPOLY -/

theorem exec_getpoly_of_error {ver : BitVec 6} {ecl : Ecl} {s : State} {c : Cause}
    (h : getpolyRanges ver ecl s = .error c) :
    exec (.getpoly ver ecl) s = .next (s.faultEntry (causeCode c)) := by
  rw [exec, execGetpoly, h]
  rfl

theorem exec_getpoly_of_ok {ver : BitVec 6} {ecl : Ecl} {s : State} {r : Ranges}
    (h : getpolyRanges ver ecl s = .ok r) : exec (.getpoly ver ecl) s =
      .next (s.wroteAt r.dest.base (genRom (r.dest.len - 1)) r.dest.len) := by
  rw [exec, execGetpoly, h]
  rfl

end Sys2Proof.Machine

open Sys2Proof Sys2Proof.Machine

/-- Settles O54: the first check to fail names the cause, and the destination has room for the slot. -/
theorem getpolyWritesGenerator : Obligations.GetpolyWritesGenerator := by
  refine ⟨fun ver ecl s k hk => ?_, fun v e h1 h40 => ?_,
    fun _ => decode_of_getElem (n := 10) rfl, rfl, encode_eq_iff_decode_eq_ok.1 (by decide), rfl⟩
  · subst hk
    refine ⟨fun h => ?_, fun h1 h40 =>
      ⟨fun hupper => ?_, fun hupper hout => ?_, fun hupper hin => ?_⟩⟩
    · exact exec_getpoly_of_error (getpolyRanges_of_badVersion h ecl s)
    · exact exec_getpoly_of_error (getpolyRanges_of_badOperand h1 h40 hupper ecl)
    · exact exec_getpoly_of_error (getpolyRanges_of_outside h1 h40 hupper hout)
    · exact exec_getpoly_of_ok (getpolyRanges_of_inBounds h1 h40 hupper hin)
  · obtain ⟨h7, h30⟩ := eccTable_ect_bounds _ (eccRow_mem h1 h40 e)
    exact ⟨length_genRom h30, genRom_head _ h30, h7, h30⟩

end

section
/-!
PROOFS. The format words: FMTINFO (41_tables.md R185), and the words as a linear code (R186, R188).
-/

namespace Sys2Proof.Machine

/-! ## The code is linear -/

/-- One step of the long division by 0x537 over GF(2). -/
def bchStep (v i : Nat) : Nat := if v.testBit (i + 10) then v ^^^ (0x537 <<< i) else v

theorem bchRemainder_eq_foldl (data : Nat) :
    bchRemainder data = [4, 3, 2, 1, 0].foldl bchStep (data <<< 10) := rfl

/-- A mask on both words cancels. -/
theorem xor_mask_cancel (v w g : Nat) : (v ^^^ g) ^^^ (w ^^^ g) = v ^^^ w := by
  rw [Nat.xor_assoc, Nat.xor_comm w, Nat.xor_xor_cancel_left]

theorem bchStep_xor (v w i : Nat) : bchStep (v ^^^ w) i = bchStep v i ^^^ bchStep w i := by
  simp only [bchStep, Nat.testBit_xor]
  generalize 0x537 <<< i = g
  cases v.testBit (i + 10) <;> cases w.testBit (i + 10)
  · rfl
  · exact Nat.xor_assoc v w g
  · exact Nat.xor_right_comm v w g
  · exact (xor_mask_cancel v w g).symm

theorem foldl_bchStep_xor (is : List Nat) (v w : Nat) :
    is.foldl bchStep (v ^^^ w) = is.foldl bchStep v ^^^ is.foldl bchStep w := by
  induction is generalizing v w with
  | nil => rfl
  | cons i rest ih => rw [List.foldl_cons, bchStep_xor, ih, List.foldl_cons, List.foldl_cons]

/-- The codeword of 5 data bits: the data, then the remainder. -/
def bchWord (data : Nat) : Nat := (data <<< 10) ^^^ bchRemainder data

theorem bchWord_xor (d d' : Nat) : bchWord (d ^^^ d') = bchWord d ^^^ bchWord d' := by
  simp only [bchWord, bchRemainder_eq_foldl, Nat.shiftLeft_xor_distrib, foldl_bchStep_xor]
  ac_rfl

/-- The data bits and the remainder share no bit. -/
theorem shiftLeft_add_bchRemainder : ∀ d < 32, (d <<< 10) + bchRemainder d = bchWord d := by
  decide +kernel

/-- The weight of every codeword but 0. -/
theorem bchWord_weight : ∀ d < 32, d ≠ 0 → 7 ≤ formatDistance (bchWord d) 0 := by
  decide +kernel

/-! ## The table -/

/-- The 5 data bits of a level and a mask (41_tables.md R186). -/
def formatData (e : Ecl) (m : Nat) : Nat := formatIndicator e * 8 + m

theorem formatData_lt (e : Ecl) {m : Nat} (hm : m < 8) : formatData e m < 32 := by
  have hind : formatIndicator e < 4 := by cases e <;> decide
  unfold formatData
  omega

theorem formatData_injective {e e' : Ecl} {m m' : Nat} (hm : m < 8) (hm' : m' < 8)
    (h : formatData e m = formatData e' m') : (e, m) = (e', m') := by
  have hind : formatIndicator e = formatIndicator e' → e = e' := by cases e <;> cases e' <;> decide
  unfold formatData at h
  rw [hind (by omega), show m = m' by omega]

theorem fmtRom_eq (e : Ecl) : ∀ m < 8, fmtRom e m = bchWord (formatData e m) ^^^ 0x5412 := by
  cases e <;> decide +kernel

theorem fmtRom_lt (e : Ecl) : ∀ m < 8, fmtRom e m < 2 ^ 15 := by
  cases e <;> decide

theorem fmtRom_xor_fmtRom (e e' : Ecl) {m m' : Nat} (hm : m < 8) (hm' : m' < 8) :
    fmtRom e m ^^^ fmtRom e' m' = bchWord (formatData e m ^^^ formatData e' m') := by
  rw [fmtRom_eq e m hm, fmtRom_eq e' m' hm', bchWord_xor, xor_mask_cancel]

end Sys2Proof.Machine

open Sys2Proof Sys2Proof.Machine

/-- Settles O55: FMTINFO has no check, and the table has a word for each mask. -/
theorem fmtinfoReadsWord : Obligations.FmtinfoReadsWord :=
  ⟨fun _ _ _ => rfl, fmtRom_lt, fun _ => decode_of_getElem (n := 11) rfl,
    encode_eq_iff_decode_eq_ok.1 (by decide), rfl⟩

/-- Settles O56: the distance of two words of a linear code is the weight of a third, and the mask
0x5412 cancels. -/
theorem formatWordConstruction : Obligations.FormatWordConstruction := by
  refine ⟨fun e m hm => ?_, fun e e' m m' hm hm' hne => ?_,
    ⟨.M, .M, 0, 1, by decide, by decide, by decide +kernel⟩⟩
  · rw [fmtRom_eq e m hm, ← shiftLeft_add_bchRemainder _ (formatData_lt e hm), formatData]
  · have hdata : formatData e m ^^^ formatData e' m' ≠ 0 := fun h =>
      hne (formatData_injective hm hm' (Nat.xor_eq_zero_iff.1 h))
    have hlt : formatData e m ^^^ formatData e' m' < 2 ^ 5 :=
      Nat.xor_lt_two_pow (formatData_lt e hm) (formatData_lt e' hm')
    rw [formatDistance, fmtRom_xor_fmtRom e e' hm hm', ← Nat.xor_zero (bchWord _)]
    exact bchWord_weight _ hlt hdata

end

section
/-!
PROOFS. Where STRUCT puts each codeword (42_structurer.md R212 to R214).
-/

namespace Sys2Proof.Machine

/-! ## The blocks (42_structurer.md R212) -/

/-- The length of block `b`. -/
def blockSize (row : EccRow) (b : Nat) : Nat := if b < row.c1 then row.s1 else row.s2

theorem dataBlock_eq (row : EccRow) (d : List Byte) (b : Nat) :
    dataBlock row d b = (d.drop (blockStart row b)).take (blockSize row b) := by
  unfold dataBlock blockStart blockSize
  split_ifs <;> rfl

theorem getElem?_dataBlock (row : EccRow) (d : List Byte) {b i : Nat} (hi : i < blockSize row b) :
    (dataBlock row d b)[i]? = d[blockStart row b + i]? := by
  rw [dataBlock_eq, List.getElem?_take_of_lt hi, List.getElem?_drop]

theorem getElem?_dataBlocks {row : EccRow} (d : List Byte) {b : Nat} (hb : b < row.blocks) :
    (dataBlocks row d)[b]? = some (dataBlock row d b) := by
  simp [dataBlocks, hb]

section
variable {row : EccRow} (hrow : row ∈ eccTable)
include hrow

theorem eccTable_dcw_eq : row.dcw = row.c1 * row.s1 + row.c2 * row.s2 := by
  obtain ⟨v, e, -, -, rfl⟩ := mem_eccTable_iff.1 hrow
  rw [eccRow_dcw_eq, Nat.mul_comm (eccRow v e).s1, Nat.mul_comm (eccRow v e).s2]

/-- Every block ends within the data. -/
theorem blockStart_add_blockSize_le {b : Nat} (hb : b < row.blocks) :
    blockStart row b + blockSize row b ≤ row.dcw := by
  rw [eccTable_dcw_eq hrow, blockStart, blockSize]
  by_cases hgroup : b < row.c1
  · have hle : (b + 1) * row.s1 ≤ row.c1 * row.s1 := Nat.mul_le_mul_right _ hgroup
    rw [if_pos hgroup, if_pos hgroup]
    linarith [Nat.zero_le (row.c2 * row.s2)]
  · have hle : (b - row.c1 + 1) * row.s2 ≤ row.c2 * row.s2 :=
      Nat.mul_le_mul_right _ (by rw [EccRow.blocks] at hb; omega)
    rw [if_neg hgroup, if_neg hgroup]
    linarith

theorem length_dataBlock {d : List Byte} (hd : d.length = row.dcw) {b : Nat} (hb : b < row.blocks) :
    (dataBlock row d b).length = blockSize row b := by
  have hle := blockStart_add_blockSize_le hrow hb
  rw [dataBlock_eq, List.length_take, List.length_drop]
  omega

theorem blockSize_of_group2 {b : Nat} (hb : row.c1 ≤ b) (hb' : b < row.blocks) :
    blockSize row b = row.s1 + 1 := by
  rw [blockSize, if_neg (not_lt.2 hb)]
  exact (eccTable_group2 row hrow).1 (by rw [EccRow.blocks] at hb'; omega)

/-- A block of either group has the codewords below `s1`. -/
theorem le_blockSize {b : Nat} (hb : b < row.blocks) : row.s1 ≤ blockSize row b := by
  by_cases hgroup : b < row.c1
  · rw [blockSize, if_pos hgroup]
  · rw [blockSize_of_group2 hrow (not_lt.1 hgroup) hb]
    exact Nat.le_succ _

end

/-! ## The column-wise listing -/

theorem some_getD {l : List Byte} {i : Nat} (hi : i < l.length) : some (l.getD i 0) = l[i]? := by
  rw [List.getD_eq_getElem _ _ hi, List.getElem?_eq_getElem hi]

theorem interleaveErrors_succ (k : Nat) (blocks : List (List Byte)) :
    interleaveErrors (k + 1) blocks =
      interleaveErrors k blocks ++ blocks.map (fun b => b.getD k 0) := by
  simp [interleaveErrors, List.range_succ]

/-- Codeword `j` of block `b` of `n` stands at `j * n + b`. -/
theorem getElem?_interleaveErrors {k j n b : Nat} {blocks : List (List Byte)} {block : List Byte}
    (hn : blocks.length = n) (hb : blocks[b]? = some block) (hj : j < k) :
    (interleaveErrors k blocks)[j * n + b]? = some (block.getD j 0) := by
  obtain ⟨hlt, -⟩ := List.getElem?_eq_some_iff.1 hb
  induction k with
  | zero => omega
  | succ k ih =>
    rw [interleaveErrors_succ]
    obtain hjk | rfl := Nat.lt_succ_iff_lt_or_eq.1 hj
    · have hcolumns : (j + 1) * n ≤ k * n := Nat.mul_le_mul_right _ hjk
      rw [Nat.succ_mul] at hcolumns
      rw [List.getElem?_append_left (by rw [length_interleaveErrors, hn]; omega), ih hjk]
    · rw [List.getElem?_append_right (by simp [hn]), length_interleaveErrors, hn,
        Nat.add_sub_cancel_left, List.getElem?_map, hb]
      rfl

/-- The data part is the column-wise listing of the positions all blocks have, and then the last
codewords of the group-2 blocks. -/
theorem interleaveData_eq {row : EccRow} (hrow : row ∈ eccTable) {blocks : List (List Byte)}
    (hlen : blocks.length = row.blocks) :
    interleaveData row blocks = interleaveErrors row.s1 blocks ++
      (blocks.drop row.c1).map (fun b => b.getD row.s1 0) := by
  obtain ⟨hpresent, habsent⟩ := eccTable_group2 row hrow
  unfold interleaveData interleaveErrors
  obtain hc2 | hc2 := Nat.eq_zero_or_pos row.c2
  · have hall : blocks.length ≤ row.c1 := by rw [hlen, EccRow.blocks, hc2]; rfl
    rw [habsent hc2, Nat.max_zero, List.drop_eq_nil_of_le hall, List.take_of_length_le hall,
      List.map_nil, List.append_nil]
    refine List.flatMap_congr fun i hi => ?_
    rw [if_pos (List.mem_range.1 hi), if_neg (Nat.not_lt_zero i), List.append_nil]
  · rw [hpresent hc2, Nat.max_eq_right (Nat.le_succ _), List.range_succ, List.flatMap_append]
    congr 1
    · refine List.flatMap_congr fun i hi => ?_
      have hi := List.mem_range.1 hi
      rw [if_pos hi, if_pos (Nat.lt_succ_of_lt hi), ← List.map_append, List.take_append_drop]
    · simp

theorem structured_eq {row : EccRow} (hrow : row ∈ eccTable) (d : List Byte) :
    structured row d =
      interleaveErrors row.s1 (dataBlocks row d) ++
        ((dataBlocks row d).drop row.c1).map (fun b => b.getD row.s1 0) ++
      interleaveErrors row.ect ((dataBlocks row d).map fun b => div b (genRom row.ect)) := by
  rw [structured, interleaveData_eq hrow (length_dataBlocks _ _)]

/-! ## The positions (42_structurer.md R213) -/

section
variable {row : EccRow} (hrow : row ∈ eccTable) {d : List Byte}
include hrow

theorem length_interleaveData_dataBlocks :
    (interleaveData row (dataBlocks row d)).length = row.dcw := by
  rw [length_interleaveData _ (length_dataBlocks _ _), eccTable_dcw_eq hrow, Nat.mul_comm row.s1,
    Nat.mul_comm row.s2]

theorem getElem?_structured_error {b j : Nat} (hb : b < row.blocks) (hj : j < row.ect) :
    (structured row d)[row.dcw + (j * row.blocks + b)]? =
      (div (dataBlock row d b) (genRom row.ect))[j]? := by
  have hlen : (div (dataBlock row d b) (genRom row.ect)).length = row.ect := by
    rw [length_div, length_genRom (eccTable_ect_bounds row hrow).2, Nat.add_sub_cancel]
  have hremainder : ((dataBlocks row d).map fun m => div m (genRom row.ect))[b]? =
      some (div (dataBlock row d b) (genRom row.ect)) := by
    rw [List.getElem?_map, getElem?_dataBlocks d hb]
    rfl
  rw [structured, List.getElem?_append_right (by rw [length_interleaveData_dataBlocks hrow]; omega),
    length_interleaveData_dataBlocks hrow, Nat.add_sub_cancel_left,
    getElem?_interleaveErrors (by simp) hremainder hj, some_getD (hj.trans_eq hlen.symm)]

variable (hd : d.length = row.dcw)
include hd

/-- A codeword the block has, read with a default. -/
theorem some_getD_dataBlock {b i : Nat} (hb : b < row.blocks) (hi : i < blockSize row b) :
    some ((dataBlock row d b).getD i 0) = d[blockStart row b + i]? := by
  rw [← getElem?_dataBlock row d hi, some_getD (by rwa [length_dataBlock hrow hd hb])]

theorem getElem?_structured_data {b i : Nat} (hb : b < row.blocks) (hi : i < row.s1) :
    (structured row d)[i * row.blocks + b]? = d[blockStart row b + i]? := by
  have hblock := getElem?_interleaveErrors (length_dataBlocks row d) (getElem?_dataBlocks d hb) hi
  rw [← some_getD_dataBlock hrow hd hb (hi.trans_le (le_blockSize hrow hb)), structured_eq hrow,
    List.append_assoc, List.getElem?_append_left (List.getElem?_eq_some_iff.1 hblock).1, hblock]

theorem getElem?_structured_last {b : Nat} (hb : row.c1 ≤ b) (hb' : b < row.blocks) :
    (structured row d)[row.s1 * row.blocks + (b - row.c1)]? = d[blockStart row b + row.s1]? := by
  have hsize := blockSize_of_group2 hrow hb hb'
  rw [← some_getD_dataBlock hrow hd hb' (by omega), structured_eq hrow, List.append_assoc,
    List.getElem?_append_right (by simp), length_interleaveErrors, length_dataBlocks,
    Nat.add_sub_cancel_left, List.getElem?_append_left (by simp; omega), List.getElem?_map,
    List.getElem?_drop, Nat.add_sub_cancel' hb, getElem?_dataBlocks d hb']
  rfl

end

end Sys2Proof.Machine

open Sys2Proof Sys2Proof.Machine

/-- Settles O45: the output is three column-wise listings, and block `b` is column `b` of each. -/
theorem interleavePositions : Obligations.InterleavePositions := by
  intro v e row d h1 h40 hv hd
  have hrow : row ∈ eccTable := hv ▸ eccRow_mem h1 h40 e
  refine ⟨fun b hb i hi => getElem?_structured_data hrow hd hb hi,
    fun b hb hb' => getElem?_structured_last hrow hd hb hb', fun b hb j hj => ?_⟩
  rw [Nat.add_assoc, ← blockSize, ← dataBlock_eq]
  exact getElem?_structured_error hrow hb hj
end

section
/-!
PROOFS. The length of STRUCT's output, and that its data part is a permutation of the input
(42_structurer.md R214).
-/

namespace Sys2Proof.Machine

/-! ## The blocks in order are the data -/

/-- Group 1, then group 2. -/
theorem dataBlocks_eq_append (row : EccRow) (d : List Byte) :
    dataBlocks row d = (List.range row.c1).map (dataBlock row d) ++
      (List.range row.c2).map fun b => dataBlock row d (row.c1 + b) := by
  rw [dataBlocks, EccRow.blocks, List.range_add, List.map_append, List.map_map]
  rfl

theorem flatMap_range_take_drop (d : List Byte) (size n : Nat) :
    ((List.range n).flatMap fun b => (d.drop (b * size)).take size) = d.take (n * size) := by
  induction n with
  | zero => simp
  | succ n ih =>
    rw [List.range_succ, List.flatMap_append, ih, Nat.succ_mul, List.take_add,
      List.flatMap_singleton]

theorem flatten_dataBlocks {row : EccRow} (hrow : row ∈ eccTable) {d : List Byte}
    (hd : d.length = row.dcw) : (dataBlocks row d).flatten = d := by
  have hgroup1 : (List.range row.c1).flatMap (dataBlock row d) = d.take (row.c1 * row.s1) := by
    rw [← flatMap_range_take_drop]
    exact List.flatMap_congr fun b hb => if_pos (List.mem_range.1 hb)
  have hgroup2 : ((List.range row.c2).flatMap fun b => dataBlock row d (row.c1 + b)) =
      (d.drop (row.c1 * row.s1)).take (row.c2 * row.s2) := by
    rw [← flatMap_range_take_drop]
    refine List.flatMap_congr fun b _ => ?_
    rw [dataBlock, if_neg (by omega), Nat.add_sub_cancel_left, List.drop_drop]
  rw [dataBlocks_eq_append, List.flatten_append, ← List.flatMap_def, ← List.flatMap_def, hgroup1,
    hgroup2, ← List.take_add, ← eccTable_dcw_eq hrow, ← hd, List.take_length]

/-! ## The column-wise listing is a permutation -/

theorem map_getD_range {l : List Byte} {n : Nat} (hn : n ≤ l.length) :
    (List.range n).map (fun i => l.getD i 0) = l.take n := by
  refine List.ext_getElem (by simp [hn]) fun i hi _ => ?_
  rw [List.length_map, List.length_range] at hi
  simp [hi.trans_le hn]

/-- Listing the first `k` codewords of every block by columns permutes their listing by blocks. -/
theorem interleaveErrors_perm {k : Nat} {blocks : List (List Byte)}
    (h : ∀ block ∈ blocks, k ≤ block.length) :
    (interleaveErrors k blocks).Perm (blocks.flatMap fun block => block.take k) := by
  rw [← List.flatMap_congr fun block hblock => map_getD_range (h block hblock)]
  have hswap := Multiset.bind_map_comm (List.range k : Multiset Nat) (blocks : Multiset (List Byte))
    (f := fun i block => block.getD i 0)
  simpa only [interleaveErrors, Multiset.map_coe, Multiset.coe_bind, Multiset.coe_eq_coe] using hswap

/-- Blocks of two sizes, by columns: the positions all of them have, and then the last codewords of
the longer ones. -/
theorem columns_perm_flatten {size : Nat} {short long : List (List Byte)}
    (hshort : ∀ block ∈ short, block.length = size)
    (hlong : ∀ block ∈ long, block.length = size + 1) :
    (interleaveErrors size (short ++ long) ++ long.map fun block => block.getD size 0).Perm
      (short ++ long).flatten := by
  have hfits : ∀ block ∈ short ++ long, size ≤ block.length := by
    intro block hb
    obtain hb | hb := List.mem_append.1 hb
    · exact (hshort block hb).ge
    · exact (hlong block hb).ge.trans' (Nat.le_succ size)
  have hcolumns : (interleaveErrors size (short ++ long)).Perm
      (short.flatten ++ long.flatMap fun block => block.take size) := by
    have hperm := interleaveErrors_perm hfits
    rwa [List.flatMap_append, List.flatMap_congr fun block hb =>
      List.take_of_length_le (hshort block hb).le, List.flatMap_id'] at hperm
  have hwhole : ∀ block ∈ long, block.take size ++ [block.getD size 0] = block := by
    intro block hb
    have hlt : size < block.length := (hlong block hb).ge
    rw [List.getD_eq_getElem _ _ hlt, List.take_concat_get', List.take_of_length_le (hlong block hb).le]
  have hlast : ((long.flatMap fun block => block.take size) ++
      long.map fun block => block.getD size 0).Perm long.flatten := by
    have hperm := List.flatMap_append_perm long (fun block => block.take size)
      fun block => [block.getD size 0]
    rwa [List.flatMap_congr hwhole, List.flatMap_id', ← List.map_eq_flatMap] at hperm
  rw [List.flatten_append]
  refine (hcolumns.append_right _).trans ?_
  rw [List.append_assoc]
  exact hlast.append_left _

theorem interleaveData_perm {row : EccRow} (hrow : row ∈ eccTable) {d : List Byte}
    (hd : d.length = row.dcw) : (interleaveData row (dataBlocks row d)).Perm d := by
  have hperm := columns_perm_flatten (size := row.s1)
    (short := (List.range row.c1).map (dataBlock row d))
    (long := (List.range row.c2).map fun b => dataBlock row d (row.c1 + b)) ?_ ?_
  · rw [← dataBlocks_eq_append, flatten_dataBlocks hrow hd] at hperm
    rw [interleaveData_eq hrow (length_dataBlocks _ _)]
    rwa [dataBlocks_eq_append, List.drop_left' (by simp), ← dataBlocks_eq_append]
  · intro block hblock
    obtain ⟨b, hb, rfl⟩ := List.mem_map.1 hblock
    have hb := List.mem_range.1 hb
    rw [length_dataBlock hrow hd (hb.trans_le (Nat.le_add_right _ _)), blockSize, if_pos hb]
  · intro block hblock
    obtain ⟨b, hb, rfl⟩ := List.mem_map.1 hblock
    have hb : row.c1 + b < row.blocks := Nat.add_lt_add_left (List.mem_range.1 hb) _
    rw [length_dataBlock hrow hd hb, blockSize_of_group2 hrow (Nat.le_add_right _ _) hb]

/-! ## The length -/

theorem eccTable_total_le : ∀ row ∈ eccTable, row.total ≤ 3706 := by decide +kernel

theorem exec_struct_result {ver : BitVec 6} {ecl : Ecl} {s t : State}
    (h : exec (.struct ver ecl) s = .next t) (hidle : t.eng = .idle) :
    t.result = BitVec.ofNat 32 (eccRow ver.toNat ecl).total := by
  obtain ⟨c, -, rfl⟩ | ⟨r, hr, h⟩ := withRanges_eq_next.1 h
  · cases hidle
  · obtain ⟨d, -, h⟩ := readThen_eq_next.1 h
    cases h
    rw [State.completeWrite_result, structRanges_eq_ok hr]

end Sys2Proof.Machine

open Sys2Proof Sys2Proof.Machine

/-- Settles O46: the data part lists the codewords of the blocks by columns, and the blocks in order
are the input. -/
theorem structOutputLength : Obligations.StructOutputLength := by
  refine ⟨fun v e row d h1 h40 hv hd => ?_, ?_, fun ver e row s t hv h hidle => ?_⟩
  · have hrow : row ∈ eccTable := hv ▸ eccRow_mem h1 h40 e
    refine ⟨hv ▸ length_structured v e d, eccTable_total_le row hrow, ?_⟩
    rw [structured, List.take_left' (length_interleaveData_dataBlocks hrow)]
    exact interleaveData_perm hrow hd
  · exact fun e => by cases e <;> rfl
  · rw [hv]
    exact exec_struct_result h hidle
end

section
/-!
PROOFS. RSENC and STRUCT as commands (42_structurer.md R210, R212, R216): their checks in their order
(60_exceptions.md R273) and their ends.
-/

namespace Sys2Proof.Machine

/-! ## Ranges with one source -/

/-- The ranges of RSENC and STRUCT: a source, no generator, a destination. -/
def sourceAndDest (source dest : Range) : Ranges := ⟨source, Range.empty, dest⟩

section
variable {source dest : Range}

theorem checkedRanges_sourceAndDest_of_outside
    (h : 8192 < source.base + source.len ∨ 8192 < dest.base + dest.len) :
    checkedRanges (sourceAndDest source dest) = .error .range :=
  checkedRanges_of_outside (h.imp_right .inr)

variable (hsource : source.base + source.len ≤ 8192) (hdest : dest.base + dest.len ≤ 8192)
include hsource hdest

theorem checkedRanges_sourceAndDest_of_not_apart
    (h : ¬ Apart dest.base dest.len source.base source.len) :
    checkedRanges (sourceAndDest source dest) = .error .overlap :=
  checkedRanges_of_not_apart hsource (Nat.zero_le _) hdest (.inl h)

theorem checkedRanges_sourceAndDest_of_apart
    (h : Apart dest.base dest.len source.base source.len) :
    checkedRanges (sourceAndDest source dest) = .ok (sourceAndDest source dest) :=
  checkedRanges_of_apart hsource (Nat.zero_le _) hdest h (.inr (.inl rfl))

end

/-! ## The checks of RSENC and STRUCT, each when it is the first to fail -/

section
variable {ver : BitVec 6}

theorem rsencRanges_of_badVersion (h : ¬ (1 ≤ ver.toNat ∧ ver.toNat ≤ 40)) (ecl : Ecl) (s : State) :
    rsencRanges ver ecl s = .error .badVersion := by
  rw [rsencRanges, checkedRow_of_illegal h]

theorem structRanges_of_badVersion (h : ¬ (1 ≤ ver.toNat ∧ ver.toNat ≤ 40)) (ecl : Ecl) (s : State) :
    structRanges ver ecl s = .error .badVersion := by
  rw [structRanges, checkedRow_of_illegal h]

variable (h1 : 1 ≤ ver.toNat) (h40 : ver.toNat ≤ 40) {s : State}
include h1 h40

theorem rsencRanges_of_badOperand (hupper : s.destUpper ≠ 0) (ecl : Ecl) :
    rsencRanges ver ecl s = .error .badOperand := by
  rw [rsencRanges, checkedRow_of_legal ⟨h1, h40⟩]
  exact if_pos hupper

theorem structRanges_of_badOperand (hupper : s.destUpper ≠ 0) (ecl : Ecl) :
    structRanges ver ecl s = .error .badOperand := by
  rw [structRanges, checkedRow_of_legal ⟨h1, h40⟩]
  exact if_pos hupper

variable (hupper : s.destUpper = 0)
include hupper

theorem rsencRanges_of_msgEmpty (hlen : s.sourceRange.len = 0) (ecl : Ecl) :
    rsencRanges ver ecl s = .error .msgEmpty := by
  rw [rsencRanges, checkedRow_of_legal ⟨h1, h40⟩]
  exact (if_neg (not_not.2 hupper)).trans (if_pos hlen)

theorem rsencRanges_of_legal (hlen : 1 ≤ s.sourceRange.len) (ecl : Ecl) :
    rsencRanges ver ecl s = checkedRanges
      (sourceAndDest s.sourceRange ⟨s.destAddr, (eccRow ver.toNat ecl).ect⟩) := by
  rw [rsencRanges, checkedRow_of_legal ⟨h1, h40⟩]
  exact (if_neg (not_not.2 hupper)).trans (if_neg (Nat.ne_zero_of_lt hlen))

theorem structRanges_of_lenMismatch {ecl : Ecl}
    (hlen : s.sourceRange.len ≠ (eccRow ver.toNat ecl).dcw) :
    structRanges ver ecl s = .error .lenMismatch := by
  rw [structRanges, checkedRow_of_legal ⟨h1, h40⟩]
  exact (if_neg (not_not.2 hupper)).trans (if_pos hlen)

theorem structRanges_of_legal {ecl : Ecl} {row : EccRow} (hrow : row = eccRow ver.toNat ecl)
    (hlen : s.sourceRange.len = row.dcw) : structRanges ver ecl s = checkedRanges
      (sourceAndDest ⟨s.sourceRange.base, row.dcw⟩ ⟨s.destAddr, row.total⟩) := by
  rw [structRanges, checkedRow_of_legal ⟨h1, h40⟩, ← hrow, ← hlen]
  exact (if_neg (not_not.2 hupper)).trans (if_neg (not_not.2 hlen))

end

/-- The checks of RSENC that passed (42_structurer.md R210). -/
theorem legal_of_rsencRanges_eq_ok {ver : BitVec 6} {ecl : Ecl} {s : State} {r : Ranges}
    (h : rsencRanges ver ecl s = .ok r) : s.destUpper = 0 ∧ 1 ≤ s.sourceRange.len ∧
      checkedRanges (sourceAndDest s.sourceRange ⟨s.destAddr, (eccRow ver.toNat ecl).ect⟩) = .ok r := by
  obtain ⟨h1, h40⟩ : 1 ≤ ver.toNat ∧ ver.toNat ≤ 40 := by
    by_contra hver
    rw [rsencRanges_of_badVersion hver] at h
    cases h
  have hupper : s.destUpper = 0 := by
    by_contra hupper
    rw [rsencRanges_of_badOperand h1 h40 hupper] at h
    cases h
  have hlen : 1 ≤ s.sourceRange.len := by
    by_contra hlen
    rw [rsencRanges_of_msgEmpty h1 h40 hupper (by omega)] at h
    cases h
  exact ⟨hupper, hlen, rsencRanges_of_legal h1 h40 hupper hlen ecl ▸ h⟩

/-! ## The ends of RSENC and STRUCT -/

section
variable {ver : BitVec 6} {ecl : Ecl} {s : State}

theorem exec_rsenc_of_error {c : Cause} (h : rsencRanges ver ecl s = .error c) :
    exec (.rsenc ver ecl) s = .next (s.faultEntry (causeCode c)) := by
  rw [exec, execRsenc, h]
  rfl

theorem exec_rsenc_of_ok {r : Ranges} {m : List Byte} (h : rsencRanges ver ecl s = .ok r)
    (hm : s.cwram.readBytes r.source.base r.source.len = .ok m) : exec (.rsenc ver ecl) s =
      .next (s.wroteAt r.dest.base (div m (genRom r.dest.len)) r.dest.len) := by
  rw [exec, execRsenc, h, withRanges_ok, readThen_of_ok _ hm]
  rfl

theorem exec_struct_of_error {c : Cause} (h : structRanges ver ecl s = .error c) :
    exec (.struct ver ecl) s = .next (s.faultEntry (causeCode c)) := by
  rw [exec, execStruct, h]
  rfl

theorem exec_struct_of_ok {r : Ranges} {d : List Byte} (h : structRanges ver ecl s = .ok r)
    (hd : s.cwram.readBytes r.source.base r.source.len = .ok d) : exec (.struct ver ecl) s =
      .next (s.wroteAt r.dest.base (structured (eccRow ver.toNat ecl) d) r.dest.len) := by
  rw [exec, execStruct, h, withRanges_ok, readThen_of_ok _ hd]
  rfl

/-- STRUCT on data and output that fit and lie apart (42_structurer.md R212). -/
theorem exec_struct_of_apart (h1 : 1 ≤ ver.toNat) (h40 : ver.toNat ≤ 40) (hupper : s.destUpper = 0)
    {row : EccRow} (hrow : row = eccRow ver.toNat ecl) (hlen : s.sourceRange.len = row.dcw)
    (hsource : s.sourceRange.base + row.dcw ≤ 8192) (hdest : s.destAddr + row.total ≤ 8192)
    (hapart : Apart s.destAddr row.total s.sourceRange.base row.dcw) {d : List Byte}
    (hd : s.cwram.readBytes s.sourceRange.base row.dcw = .ok d) :
    exec (.struct ver ecl) s = .next (s.wroteAt s.destAddr (structured row d) row.total) := by
  subst hrow
  exact exec_struct_of_ok ((structRanges_of_legal h1 h40 hupper rfl hlen).trans
    (checkedRanges_sourceAndDest_of_apart hsource hdest hapart)) hd

/-- A completed RSENC passed its checks and read its block. -/
theorem exec_rsenc_completed {t : State} (h : exec (.rsenc ver ecl) s = .next t)
    (hidle : t.eng = .idle) : ∃ r m, rsencRanges ver ecl s = .ok r ∧
      s.cwram.readBytes r.source.base r.source.len = .ok m ∧
      t = s.wroteAt r.dest.base (div m (genRom r.dest.len)) r.dest.len := by
  obtain ⟨c, -, rfl⟩ | ⟨r, hr, h⟩ := withRanges_eq_next.1 h
  · cases hidle
  · obtain ⟨m, hm, h⟩ := readThen_eq_next.1 h
    cases h
    exact ⟨r, m, hr, hm, rfl⟩

end

/-! ## Operand words (30_encoding.md R114) -/

theorem lowHalf_ofNat_mul (n : Nat) : lowHalf (BitVec.ofNat 32 (n * 65536)) = 0 := by
  rw [lowHalf, BitVec.extractLsb'_toNat, BitVec.toNat_ofNat, Nat.shiftRight_zero]
  omega

theorem highHalf_ofNat_mul {n : Nat} (hn : n < 65536) :
    highHalf (BitVec.ofNat 32 (n * 65536)) = n := by
  rw [highHalf, BitVec.extractLsb'_toNat, BitVec.toNat_ofNat, Nat.shiftRight_eq_div_pow]
  omega

end Sys2Proof.Machine

open Sys2Proof Sys2Proof.Machine

/-- Settles O42: the first check to fail names the cause, and the block is divided by its slot. -/
theorem rsencEncodesBlock : Obligations.RsencEncodesBlock := by
  rintro ver ecl s k rfl
  refine ⟨fun h => exec_rsenc_of_error (rsencRanges_of_badVersion h ecl s), fun h1 h40 =>
    ⟨fun hupper => exec_rsenc_of_error (rsencRanges_of_badOperand h1 h40 hupper ecl),
      fun hupper hlen => exec_rsenc_of_error (rsencRanges_of_msgEmpty h1 h40 hupper hlen ecl),
      fun hupper hlen hout => ?_, fun hupper hlen hsource hdest =>
        ⟨fun hnot => ?_, fun hapart m hm => ?_⟩⟩⟩
  · exact exec_rsenc_of_error ((rsencRanges_of_legal h1 h40 hupper hlen ecl).trans
      (checkedRanges_sourceAndDest_of_outside hout))
  · exact exec_rsenc_of_error ((rsencRanges_of_legal h1 h40 hupper hlen ecl).trans
      (checkedRanges_sourceAndDest_of_not_apart hsource hdest hnot))
  · exact exec_rsenc_of_ok ((rsencRanges_of_legal h1 h40 hupper hlen ecl).trans
      (checkedRanges_sourceAndDest_of_apart hsource hdest hapart)) hm

/-- Settles O43: the checks RSENC passed are those of DIVIDE on the slot, and both write the same
remainder. -/
theorem rsencEqualsDivide : Obligations.RsencEqualsDivide := by
  rintro ver ecl s₁ s₂ t₁ k rfl h hidle harg0 harg2 hglen hgen hapart' hg hread
  obtain ⟨r, m, hr, hm, rfl⟩ := exec_rsenc_completed h hidle
  obtain ⟨hupper, hlen, hchecked⟩ := legal_of_rsencRanges_eq_ok hr
  obtain ⟨rfl, hsource, -, hdest, hapart, -⟩ := checkedRanges_eq_ok.1 hchecked
  have hect := eccRow_ect_le ver.toNat ecl
  generalize (eccRow ver.toNat ecl).ect = k at *
  rw [harg2] at hapart'
  have hdivide : exec .divide s₂ =
      .next (s₂.wroteAt (lowHalf s₁.larg2) (div m (genRom k)) k) := by
    have hwrites := divideWritesRemainder s₂ m (genRom k)
    rw [harg2, hglen, Nat.add_sub_cancel, hread, harg0] at hwrites
    exact hwrites hupper (by omega) (by omega) (.inl hlen)
      (Range.inBounds_iff.1 hsource) hgen (Range.inBounds_iff.1 hdest)
      (Range.overlaps_eq_false_iff.1 hapart) hapart' hm hg
  have hbytes : (div m (genRom k)).length = k := by
    rw [length_div, length_genRom hect, Nat.add_sub_cancel]
  obtain ⟨t₂, ht₂, halike⟩ := completeWrite_answersAlike (s₁ := s₁) (s₂ := s₂)
    (d := ⟨lowHalf s₁.larg2, k⟩) hbytes (BitVec.ofNat 32 k) _ rfl
  obtain ⟨hresult, hcells⟩ := halike.completed hidle
  exact ⟨t₂, hdivide.trans ht₂, halike.eng.trans hidle, hresult,
    fun a hle hlt => hcells a (Range.contains_iff.2 ⟨hle, hlt⟩)⟩

/-- Settles O44: the first check to fail names the cause, and the data are interleaved. -/
theorem structInterleaves : Obligations.StructInterleaves := by
  rintro ver ecl s row n hrow rfl
  refine ⟨fun h => exec_struct_of_error (structRanges_of_badVersion h ecl s), fun h1 h40 =>
    ⟨fun hupper => exec_struct_of_error (structRanges_of_badOperand h1 h40 hupper ecl),
      fun hupper hlen => exec_struct_of_error
        (structRanges_of_lenMismatch h1 h40 hupper (hrow ▸ hlen)),
      fun hupper hlen hout => ?_, fun hupper hlen hsource hdest => ⟨fun hnot => ?_,
        fun hapart d hd => exec_struct_of_apart h1 h40 hupper hrow hlen hsource hdest hapart hd⟩⟩⟩
  · exact exec_struct_of_error ((structRanges_of_legal h1 h40 hupper hrow hlen).trans
      (checkedRanges_sourceAndDest_of_outside hout))
  · exact exec_struct_of_error ((structRanges_of_legal h1 h40 hupper hrow hlen).trans
      (checkedRanges_sourceAndDest_of_not_apart hsource hdest hnot))

/-- Settles O47: the input ends at cell 2956 at the latest, and the output has at most 3706 bytes. -/
theorem structFitsInCwram : Obligations.StructFitsInCwram := by
  intro ver ecl s row d h1 h40 hrow harg0 harg2 hd
  have hmem : row ∈ eccTable := hrow ▸ eccRow_mem h1 h40 ecl
  obtain ⟨-, hdcw⟩ := eccTable_dcw_bounds row hmem
  have htotal := eccTable_total_le row hmem
  have hlow : lowHalf s.larg0 = 0 := by rw [harg0, lowHalf_ofNat_mul]
  have hhigh : highHalf s.larg0 = row.dcw := by rw [harg0, highHalf_ofNat_mul (by omega)]
  have hdest : s.destAddr = 2956 := by rw [State.destAddr, harg2]; rfl
  have hupper : s.destUpper = 0 := by rw [State.destUpper, harg2]; rfl
  have hbase : s.sourceRange.base = 0 := hlow
  refine ⟨hdcw, Nat.add_le_add_left htotal 2956, ?_⟩
  have hexec := exec_struct_of_apart h1 h40 hupper hrow hhigh (by omega) (by omega)
    (.inr (.inr (.inr (by omega)))) (hbase ▸ hd)
  rwa [hdest] at hexec

end

section
/-!
PROOFS. The mask penalty ROM (43_mask_penalty.md): PSCORE and its table by the rule of R241, beside the
reading of R242; TRAIL and its tables by the longest run of equal bits (R245), from which the laws of
R246 follow.
-/

namespace Sys2Proof.Machine

/-! ## PSCORE (43_mask_penalty.md R240) -/

theorem exec_pscore_of_le {s : State} (h255 : s.operand ≤ 255) :
    exec .pscore s = .next (s.resultIs (psrRom s.operand)) := by
  rw [exec, execPscore, pscoreResult, if_neg (not_lt.2 h255), finish_ok]
  rfl

theorem exec_pscore_of_gt {s : State} (h255 : 255 < s.operand) :
    exec .pscore s = .next (s.faultEntry 0x06) := by
  rw [exec, execPscore, pscoreResult, if_pos h255, finish_error]
  rfl

/-! ## The condition-4 table (43_mask_penalty.md R241, R242) -/

/-- The entry of the bucket `[5q, 5q + 5]` of `p`: its end nearer to 50 counts. -/
theorem psrOf_prevNext : ∀ p ≤ 100, psrOf .prevNext p =
    10 * min ((5 * (p / 5) - 50) + (50 - 5 * (p / 5)))
      ((5 * (p / 5) + 5 - 50) + (50 - (5 * (p / 5) + 5))) / 5 := by
  decide +kernel

theorem psrOf_prevNext_sentinel : ∀ p ≤ 255, 101 ≤ p → psrOf .prevNext p = 255 := by
  decide +kernel

theorem psrOf_floorAbs {p : Nat} (h100 : p ≤ 100) :
    psrOf .floorAbs p = 10 * (((p - 50) + (50 - p)) / 5) :=
  if_pos h100

theorem psrOf_floorAbs_sentinel {p : Nat} (h101 : 101 ≤ p) : psrOf .floorAbs p = 255 :=
  if_neg (by omega)

/-- The indices at which the two readings differ are the multiples of 5 below 50. -/
theorem mem_ruleDifferences_iff {p : Nat} :
    p ∈ [0, 5, 10, 15, 20, 25, 30, 35, 40, 45] ↔ p < 50 ∧ p % 5 = 0 := by
  simp only [List.mem_cons, List.not_mem_nil, or_false]
  omega

/-- The nearer end of the bucket of a multiple of 5 below 50 is the next one, one bucket closer to
50. -/
theorem psrOf_floorAbs_eq_psrOf_prevNext {p : Nat} (h100 : p ≤ 100) :
    psrOf .floorAbs p =
      if p < 50 ∧ p % 5 = 0 then psrOf .prevNext p + 10 else psrOf .prevNext p := by
  rw [psrOf_floorAbs h100, psrOf_prevNext p h100]
  split_ifs <;> omega

/-! ## TRAIL (43_mask_penalty.md R243) -/

section
variable {size : BitVec 4} {s : State}

theorem exec_trail_of_lt (hsize : 5 ≤ size.toNat ∧ size.toNat ≤ 11)
    (hbuf : s.operand < 2 ^ size.toNat) :
    exec (.trail size) s = .next (s.resultIs (trailing size.toNat s.operand)) := by
  rw [exec, execTrail, trailResult, if_neg (not_not.2 (sizeLegal_iff.2 hsize)),
    if_neg (not_le.2 hbuf), finish_ok]
  rfl

theorem exec_trail_of_badOperand (hsize : 5 ≤ size.toNat ∧ size.toNat ≤ 11)
    (hbuf : 2 ^ size.toNat ≤ s.operand) : exec (.trail size) s = .next (s.faultEntry 0x06) := by
  rw [exec, execTrail, trailResult, if_neg (not_not.2 (sizeLegal_iff.2 hsize)), if_pos hbuf,
    finish_error]
  rfl

theorem exec_trail_of_badSize (hsize : ¬ (5 ≤ size.toNat ∧ size.toNat ≤ 11)) :
    exec (.trail size) s = .next (s.faultEntry 0x05) := by
  rw [exec, execTrail, trailResult, if_pos (mt sizeLegal_iff.1 hsize), finish_error]
  rfl

/-- A completed TRAIL had a legal SIZE and a buffer of that size. -/
theorem exec_trail_completed {t : State} (h : exec (.trail size) s = .next t) (hidle : t.eng = .idle) :
    (5 ≤ size.toNat ∧ size.toNat ≤ 11) ∧ s.operand < 2 ^ size.toNat ∧
      t = s.resultIs (trailing size.toNat s.operand) := by
  by_cases hsize : 5 ≤ size.toNat ∧ size.toNat ≤ 11
  · by_cases hbuf : s.operand < 2 ^ size.toNat
    · rw [exec_trail_of_lt hsize hbuf] at h
      cases h
      exact ⟨hsize, hbuf, rfl⟩
    · rw [exec_trail_of_badOperand hsize (not_lt.1 hbuf)] at h
      cases h
      cases hidle
  · rw [exec_trail_of_badSize hsize] at h
    cases h
    cases hidle

end

/-- The penalty as the spec words it: the entry at bits [SIZE-1:4] of a buffer with a uniform low
end. -/
theorem trailing_eq (size buf : Nat) : trailing size buf =
    if buf % 32 = 0 ∨ buf % 32 = 31 then trlRom size (buf / 16) else 0 := by
  simp only [trailing, ne_eq, ← not_or, ite_not, Nat.shiftRight_eq_div_pow]

/-- The index of a buffer of `size` bits. -/
theorem div_sixteen_lt {size buf : Nat} (h5 : 5 ≤ size) (hbuf : buf < 2 ^ size) :
    buf / 16 < 2 ^ (size - 4) := by
  apply Nat.div_lt_of_lt_mul
  rwa [show 16 = 2 ^ 4 from rfl, ← pow_add, Nat.add_sub_cancel' (by omega)]

/-- The index of the buffer with all `size` bits set. -/
theorem allOnes_div_sixteen {size : Nat} (h5 : 5 ≤ size) :
    (2 ^ size - 1) / 16 = 2 ^ (size - 4) - 1 := by
  obtain ⟨n, rfl⟩ := Nat.exists_eq_add_of_le' (show 4 ≤ size by omega)
  rw [Nat.add_sub_cancel, pow_add]
  omega

/-! ## The condition-1 tables (43_mask_penalty.md R245, R246) -/

/-- Whether bit `j` of an index has the other colour than bit 0. -/
def otherColour (idx j : Nat) : Bool := idx.testBit j ^^ idx.testBit 0

theorem otherColour_iff {idx j : Nat} :
    otherColour idx j = true ↔ idx.testBit j ≠ idx.testBit 0 :=
  bne_iff_ne

/-- The length of the longest run of equal bits from bit 0 among `n` index bits
(43_mask_penalty.md R245). -/
def runFromZero (n idx : Nat) : Nat := (List.range n).findIdx (otherColour idx)

theorem runFromZero_le (n idx : Nat) : runFromZero n idx ≤ n := by
  simpa [runFromZero] using List.findIdx_le_length (xs := List.range n) (p := otherColour idx)

/-- Every bit of the run has the colour of bit 0. -/
theorem testBit_of_lt_runFromZero {n idx j : Nat} (hj : j < runFromZero n idx) :
    idx.testBit j = idx.testBit 0 := by
  have hsame := List.not_of_lt_findIdx hj
  rw [List.getElem_range] at hsame
  exact not_ne_iff.1 (mt otherColour_iff.2 (Bool.eq_false_iff.1 hsame))

/-- The bit after the run has the other colour, unless the run fills the window. -/
theorem testBit_runFromZero_ne {n idx : Nat} (hlt : runFromZero n idx < n) :
    idx.testBit (runFromZero n idx) ≠ idx.testBit 0 := by
  have hfound := List.findIdx_getElem (w := lt_of_lt_of_eq hlt List.length_range.symm)
  rw [List.getElem_range] at hfound
  exact otherColour_iff.1 hfound

/-- Bit 0 itself is in the run. -/
theorem one_le_runFromZero {n : Nat} (hn : 1 ≤ n) (idx : Nat) : 1 ≤ runFromZero n idx := by
  by_contra h
  have hzero : runFromZero n idx = 0 := by omega
  have hne := testBit_runFromZero_ne (n := n) (idx := idx) (by omega)
  rw [hzero] at hne
  exact hne rfl

/-- A run across the whole window. -/
theorem runFromZero_zero (n : Nat) : runFromZero n 0 = n := by
  by_contra h
  have hne := testBit_runFromZero_ne (lt_of_le_of_ne (runFromZero_le n 0) h)
  simp at hne

/-- The complement within the window changes the colour of both bits. -/
theorem otherColour_complement {n j : Nat} (hj : j < n) (idx : Nat) :
    otherColour (idx ^^^ (2 ^ n - 1)) j = otherColour idx j := by
  have h0 : 0 < n := Nat.zero_lt_of_lt hj
  simp only [otherColour, Nat.testBit_xor, Nat.testBit_two_pow_sub_one, hj, h0, decide_true,
    Bool.xor_true, Bool.not_xor_not]

/-- The run does not depend on its colour. -/
theorem runFromZero_complement (n idx : Nat) :
    runFromZero n (idx ^^^ (2 ^ n - 1)) = runFromZero n idx := by
  have hsame : ∀ j ∈ List.range n, otherColour (idx ^^^ (2 ^ n - 1)) j = otherColour idx j :=
    fun _ hj => otherColour_complement (List.mem_range.1 hj) idx
  exact le_antisymm (List.findIdx_le_findIdx fun j hj h => (hsame j hj).trans h)
    (List.findIdx_le_findIdx fun j hj h => (hsame j hj).symm.trans h)

/-- RUN_PENALTY: the ROM holds the run plus 2 (43_mask_penalty.md R245). -/
theorem trlRom_add_four : ∀ n ≤ 7, 1 ≤ n → ∀ idx < 2 ^ n,
    trlRom (n + 4) idx = runFromZero n idx + 2 := by
  decide +kernel

section
variable {s idx : Nat} (h5 : 5 ≤ s) (h11 : s ≤ 11)
include h5 h11

theorem trlRom_eq (hidx : idx < 2 ^ (s - 4)) : trlRom s idx = runFromZero (s - 4) idx + 2 := by
  have h := trlRom_add_four (s - 4) (by omega) (by omega) idx hidx
  rwa [Nat.sub_add_cancel (by omega)] at h

theorem trlRom_bounds (hidx : idx < 2 ^ (s - 4)) : 3 ≤ trlRom s idx ∧ trlRom s idx ≤ s - 2 := by
  have hone : 1 ≤ runFromZero (s - 4) idx := one_le_runFromZero (by omega) idx
  have hle := runFromZero_le (s - 4) idx
  rw [trlRom_eq h5 h11 hidx]
  omega

theorem trlRom_complement (hidx : idx < 2 ^ (s - 4)) :
    trlRom s (idx ^^^ (2 ^ (s - 4) - 1)) = trlRom s idx := by
  have hones : 2 ^ (s - 4) - 1 < 2 ^ (s - 4) := Nat.sub_lt (Nat.two_pow_pos _) Nat.one_pos
  rw [trlRom_eq h5 h11 (Nat.xor_lt_two_pow hidx hones), runFromZero_complement,
    trlRom_eq h5 h11 hidx]

theorem trlRom_zero : trlRom s 0 = s - 2 := by
  rw [trlRom_eq h5 h11 (Nat.two_pow_pos _), runFromZero_zero]
  omega

theorem trlRom_allOnes : trlRom s (2 ^ (s - 4) - 1) = s - 2 := by
  have h := trlRom_complement h5 h11 (Nat.two_pow_pos (s - 4))
  rwa [Nat.zero_xor, trlRom_zero h5 h11] at h

/-- A penalty is 0 or a table entry (43_mask_penalty.md R246). -/
theorem trailing_bounds {buf : Nat} (hbuf : buf < 2 ^ s) :
    trailing s buf = 0 ∨ (3 ≤ trailing s buf ∧ trailing s buf ≤ 9) := by
  obtain ⟨hlow, hhigh⟩ := trlRom_bounds h5 h11 (div_sixteen_lt h5 hbuf)
  rw [trailing_eq]
  split_ifs
  · exact .inr ⟨hlow, by omega⟩
  · exact .inl rfl

end

end Sys2Proof.Machine

open Sys2Proof Sys2Proof.Machine

/-- Settles O59: TRAIL on its three ranges, and the whole-window entries, which are the largest. -/
theorem trailScoresRun : Obligations.TrailScoresRun := by
  refine ⟨fun size s h5 h11 hbuf => ?_, fun size s h5 h11 => exec_trail_of_badOperand ⟨h5, h11⟩,
    fun size s => exec_trail_of_badSize, fun _ => decode_of_getElem (n := 13) rfl,
    fun size buf h5 h11 hbuf => ?_, encode_eq_iff_decode_eq_ok.1 (by decide), rfl, rfl, rfl⟩
  · rw [← trailing_eq]
    exact exec_trail_of_lt ⟨h5, h11⟩ hbuf
  · obtain ⟨-, hle⟩ := trlRom_bounds h5 h11 (div_sixteen_lt h5 hbuf)
    rw [allOnes_div_sixteen h5, trlRom_zero h5 h11, trlRom_allOnes h5 h11]
    exact ⟨hle, hle⟩

/-- Settles O60: each entry is the run from bit 0 plus 2, and the laws are those of the run. -/
theorem trailTableLaws : Obligations.TrailTableLaws := by
  refine ⟨rfl, fun size s t h hidle => ?_, fun s idx h5 h11 hidx => ?_⟩
  · obtain ⟨⟨h5, h11⟩, hbuf, rfl⟩ := exec_trail_completed h hidle
    obtain hzero | ⟨hlow, hhigh⟩ := trailing_bounds h5 h11 hbuf
    · exact .inl (congrArg (BitVec.ofNat 32) hzero)
    · right
      rw [State.resultIs, BitVec.toNat_ofNat, Nat.mod_eq_of_lt (by omega)]
      exact ⟨hlow, hhigh⟩
  · obtain ⟨hlow, hhigh⟩ := trlRom_bounds h5 h11 hidx
    refine ⟨⟨runFromZero (s - 4) idx, one_le_runFromZero (by omega) idx, runFromZero_le _ _,
      trlRom_eq h5 h11 hidx, fun _ => testBit_of_lt_runFromZero, ?_⟩,
      (trlRom_complement h5 h11 hidx).symm, hlow, hhigh, trlRom_zero h5 h11, trlRom_allOnes h5 h11⟩
    exact (runFromZero_le _ _).eq_or_lt.imp id testBit_runFromZero_ne

/-- Settles O57: PSCORE on its two ranges, and the entries the statement names. -/
theorem pscoreReadsPenalty : Obligations.PscoreReadsPenalty := by
  refine ⟨fun _ => exec_pscore_of_le, fun _ => exec_pscore_of_gt,
    encode_eq_iff_decode_eq_ok.1 (by decide), fun p h101 h255 => psrOf_prevNext_sentinel p h255 h101,
    rfl, rfl, rfl, fun p h100 => ?_, rfl⟩
  have hentry : psrRom p = _ := psrOf_prevNext p h100
  omega

/-- Settles O58: the table follows the rule of the nearer end, and the ten differences follow from the
two rules. -/
theorem penaltyTableRules : Obligations.PenaltyTableRules := by
  refine ⟨rfl, fun _ _ => rfl, psrOf_prevNext, fun _ => psrOf_floorAbs,
    fun p h101 h255 => ⟨psrOf_prevNext_sentinel p h255 h101, psrOf_floorAbs_sentinel h101⟩,
    fun p h255 => ?_⟩
  rw [if_congr mem_ruleDifferences_iff rfl rfl]
  by_cases h100 : p ≤ 100
  · exact psrOf_floorAbs_eq_psrOf_prevNext h100
  · have h101 : 101 ≤ p := by omega
    rw [psrOf_floorAbs_sentinel h101, psrOf_prevNext_sentinel p h255 h101, if_neg (by omega)]

end

section
/-!
PROOFS. The fault procedure (60_exceptions.md R272), and a register write in the clock in which a
command ends (R278; log entry 10).
-/

namespace Sys2Proof.Machine

/-! ## The end of a command -/

theorem raiseFault_eq_faultEntry (s : State) (c : Cause) :
    s.raiseFault c = s.faultEntry (causeCode c) := rfl

theorem exec_ovr {i : Instr} {s t : State} (h : exec i s = .next t) : t.ovr = s.ovr := by
  obtain ⟨c, rfl⟩ | ⟨w, rfl⟩ | ⟨r, bs, w, -, rfl⟩ := exec_cases h <;> rfl

theorem exec_cmdlast {i : Instr} {s t : State} (h : exec i s = .next t) :
    t.cmdlast = s.cmdlast := by
  obtain ⟨c, rfl⟩ | ⟨w, rfl⟩ | ⟨r, bs, w, -, rfl⟩ := exec_cases h <;> rfl

/-- The engine's turn ends the command of a Busy engine, whether or not its word decodes, and leaves
OVR and CMDLAST. -/
theorem step_engine_ends {s t : State} {rest : List Turn} (hrst : s.rstN = true)
    (hbusy : s.eng = .busy) (hturn : s.turns = .engine :: rest) (h : step s = .next t) :
    t.done = true ∧ t.eng ≠ .busy ∧ t.ovr = s.ovr ∧ t.cmdlast = s.cmdlast := by
  cases hdecode : decode s.lcmd with
  | ok i =>
    rw [step_of_engine hturn hrst hbusy hdecode] at h
    have heng : t.eng ≠ .busy := by
      obtain hidle | ⟨hfaulted, -⟩ := exec_eng h
      · simp [hidle]
      · simp [hfaulted]
    exact ⟨exec_done h, heng, (exec_ovr h :), (exec_cmdlast h :)⟩
  | error c =>
    rw [step_of_decode_error hrst hbusy (.inl hturn) hdecode] at h
    cases h
    exact ⟨rfl, by simp [State.faultEntry], rfl, rfl⟩

/-! ## The host's step before it -/

/-- In a clock that the host and the engine share the host moves first, in a state that differs only in
its turns (log entry 10). -/
theorem hostMove_of_sameClock {s s₁ : State} {tr : Transaction} {rest : List Turn}
    (hturns : s.turns = sameClock tr ++ rest) (h : step s = .next s₁) :
    ∃ u : State, u.eng = s.eng ∧ u.cmdlast = s.cmdlast ∧ u.turns = .engine :: rest ∧
      hostMove u tr = .next s₁ :=
  ⟨{ s with turns := .engine :: rest }, rfl, rfl, rfl, (step_of_host hturns).symm.trans h⟩

theorem rstN_of_hostMove {s t : State} {tr : Transaction} (h : hostMove s tr = .next t) :
    s.rstN = true := by
  by_contra hrst
  simp [hostMove, hrst] at h

theorem writeRegister_rstN (s : State) (r : Register) (w : Word) :
    (s.writeRegister r w).rstN = s.rstN := by
  obtain h | h | h | h | ⟨-, h⟩ | ⟨-, h⟩ | h | h | h := writeRegister_cases s r w <;> rw [h] <;> rfl

theorem writeRegister_turns (s : State) (r : Register) (w : Word) :
    (s.writeRegister r w).turns = s.turns := by
  obtain h | h | h | h | ⟨-, h⟩ | ⟨-, h⟩ | h | h | h := writeRegister_cases s r w <;> rw [h] <;> rfl

/-- Only CTRL, by a soft reset, takes a Busy engine out of Busy (10_state.md R52). -/
theorem writeRegister_eng_of_busy {s : State} {r : Register} (hbusy : s.eng = .busy)
    (hr : r ≠ .ctrl) (w : Word) : (s.writeRegister r w).eng = .busy := by
  obtain ⟨heng, -⟩ | ⟨-, hidle, -⟩ | ⟨hctrl, -⟩ := writeRegister_moves s r w
  · exact heng.trans hbusy
  · simp [hbusy] at hidle
  · exact absurd hctrl hr

/-- A register write, but of CTRL, and then the engine's turn: the register's write rule applies to the
Busy block, and then the command ends (60_exceptions.md R278). -/
theorem ends_after_writeRegister {s s₁ s₂ : State} {r : Register} {w : Word} {rest : List Turn}
    (hr : r ≠ .ctrl) (hbusy : s.eng = .busy) (hturns : s.turns = .engine :: rest)
    (h₁ : hostMove s (.write r.offset .word w) = .next s₁) (h₂ : step s₁ = .next s₂) :
    s₂.done = true ∧ s₂.eng ≠ .busy ∧
      s₂.ovr = (s.writeRegister r w).ovr ∧ s₂.cmdlast = (s.writeRegister r w).cmdlast := by
  have hrst : s.rstN = true := rstN_of_hostMove h₁
  rw [hostMove_write_register hrst] at h₁
  cases h₁
  exact step_engine_ends (s := (s.writeRegister r w).respond okayWrite)
    ((writeRegister_rstN s r w).trans hrst) (writeRegister_eng_of_busy hbusy hr w)
    ((writeRegister_turns s r w).trans hturns) h₂

end Sys2Proof.Machine

open Sys2Proof Sys2Proof.Machine

/-- Settles O14: of the ends of a command only `raiseFault` leaves the engine Faulted, and the codes of
the causes are 1 to 13. -/
theorem faultEntryIsPrecise : Obligations.FaultEntryIsPrecise := by
  refine ⟨fun _ _ => rfl, fun i s t h hfaulted => ?_⟩
  obtain ⟨c, rfl⟩ | ⟨w, rfl⟩ | ⟨r, bs, w, -, rfl⟩ := exec_cases h
  · obtain ⟨hlow, hhigh⟩ := causeCode_range c
    exact ⟨causeCode c, hlow, hhigh, raiseFault_eq_faultEntry s c⟩
  · cases hfaulted
  · cases hfaulted

/-- Settles O31: the end of the command follows the write, and so its DONE stands; the engine is still
Busy at the write, and so a CMD write only sets OVR. -/
theorem sameClockEvents : Obligations.SameClockEvents := by
  intro s s₁ s₂ off w rest hbusy hturns h₁ h₂
  obtain ⟨u, heng, hcmdlast, hengine, hhost⟩ := hostMove_of_sameClock hturns h₁
  have hu : u.eng = .busy := heng.trans hbusy
  refine ⟨?_, ?_⟩
  · rintro rfl
    obtain ⟨hdone, hend, -, -⟩ :=
      ends_after_writeRegister (r := .status) (by decide) hu hengine hhost h₂
    exact ⟨hdone, hend⟩
  · rintro rfl
    obtain ⟨hdone, hend, hovr, hlast⟩ :=
      ends_after_writeRegister (r := .cmd) (by decide) hu hengine hhost h₂
    have hne : u.eng ≠ .idle := by simp [hu]
    rw [writeRegister_cmd_of_not_idle hne] at hovr hlast
    exact ⟨hovr, hlast.trans hcmdlast, hdone, hend⟩

end

section
/-!
PROOFS. Soft and hardware reset (70_reset_and_hazards.md R300, R302): the cells of an abandoned command
(R303) and the registers' reset values (10_state.md R55); and the end of every run (R310, R312).
-/

namespace Sys2Proof.Machine

/-! ## The destination of a command (70_reset_and_hazards.md R303) -/

theorem commandDest_of_error {i : Instr} {s : State} {c : Cause}
    (h : commandRanges i s = .error c) : commandDest i s = Range.empty := by
  rw [commandDest, h]

/-- Only DIVIDE, RSENC, STRUCT and GETPOLY write CWRAM. -/
theorem commandDest_eq_empty {i : Instr} (s : State) (hdivide : i ≠ .divide)
    (hrow : ∀ v e, i ≠ .rsenc v e ∧ i ≠ .struct v e ∧ i ≠ .getpoly v e) :
    commandDest i s = Range.empty := by
  cases i with
  | divide => exact absurd rfl hdivide
  | rsenc v e => exact absurd rfl (hrow v e).1
  | struct v e => exact absurd rfl (hrow v e).2.1
  | getpoly v e => exact absurd rfl (hrow v e).2.2
  | _ => rfl

/-! ## CWRAM after a reset (70_reset_and_hazards.md R303) -/

theorem abandonedRange_of_decode_ok {s : State} {i : Instr} (h : decode s.lcmd = .ok i) :
    abandonedRange s = commandDest i s := by
  cases hranges : commandRanges i s with
  | error c => simp [abandonedRange, h, hranges, commandDest_of_error hranges]
  | ok r => simp [abandonedRange, h, hranges, commandDest_of_ok hranges]

theorem abandonedRange_of_decode_error {s : State} {c : Cause} (h : decode s.lcmd = .error c) :
    abandonedRange s = Range.empty := by
  rw [abandonedRange, h]

theorem Memory.erase_empty (m : Memory) :
    m.erase Range.empty.base Range.empty.len = m := by
  simp [Memory.erase, Range.empty]

theorem abandonedCwram_of_not_busy {s : State} (h : s.eng ≠ .busy) : s.abandonedCwram = s.cwram :=
  if_neg h

theorem abandonedCwram_of_busy {s : State} (h : s.eng = .busy) :
    s.abandonedCwram = s.cwram.erase (abandonedRange s).base (abandonedRange s).len :=
  if_pos h

/-- No cell changes when the running command's word is illegal. -/
theorem abandonedCwram_of_decode_error {s : State} {c : Cause} (hbusy : s.eng = .busy)
    (h : decode s.lcmd = .error c) : s.abandonedCwram = s.cwram := by
  rw [abandonedCwram_of_busy hbusy, abandonedRange_of_decode_error h, Memory.erase_empty]

/-- Exactly the cells of the running command's destination become undefined. -/
theorem read_abandonedCwram {s : State} {i : Instr} (hbusy : s.eng = .busy)
    (h : decode s.lcmd = .ok i) (a : Nat) : s.abandonedCwram.read a =
      if (commandDest i s).contains a then none else s.cwram.read a := by
  rw [abandonedCwram_of_busy hbusy, abandonedRange_of_decode_ok h, Memory.read_erase]
  simp only [Range.contains_iff]

/-! ## While `rst_n` is low (70_reset_and_hazards.md R300) -/

theorem step_of_engine_inReset {s : State} {rest : List Turn} (hrst : s.rstN = false)
    (h : s.turns = .engine :: rest) : step s = .next { s with turns := rest } := by
  simp [step, nextMove, engineMove, h, hrst]

theorem hostMove_inReset {s : State} (hrst : s.rstN = false) (tr : Transaction) :
    hostMove s tr = .fault .transactionInReset := by
  simp [hostMove, hrst]

/-! ## The end of a run (70_reset_and_hazards.md R310, R312) -/

theorem exec_turns {i : Instr} {s t : State} (h : exec i s = .next t) : t.turns = s.turns := by
  obtain ⟨c, rfl⟩ | ⟨w, rfl⟩ | ⟨r, bs, w, -, rfl⟩ := exec_cases h <;> rfl

theorem hostMove_turns {s t : State} {tr : Transaction} (h : hostMove s tr = .next t) :
    t.turns = s.turns := by
  obtain ⟨r, rfl⟩ | ⟨r, w, -, rfl⟩ | ⟨a, bs, -, -, rfl⟩ := hostMove_cases h
  · rfl
  · exact writeRegister_turns s r w
  · rfl

theorem setRst_turns (s : State) (level : Bool) : (s.setRst level).turns = s.turns := by
  cases level <;> rfl

/-- A step uses up its turn. -/
theorem step_turns {s t : State} (h : step s = .next t) : t.turns = s.turns.tail := by
  obtain ⟨-, -, rfl⟩ | ⟨-, -, -, ⟨i, -, hexec⟩ | ⟨c, -, rfl⟩⟩ | ⟨tr, -, -, hhost⟩ |
    ⟨level, -, rfl⟩ := step_cases h rfl
  · rfl
  · exact exec_turns hexec
  · rfl
  · exact hostMove_turns hhost
  · exact setRst_turns _ level

/-- With no turn left a Busy engine ends its command: the invariant keeps it out of reset
(log entry 1). -/
theorem step_runOver_of_noTurn {s t : State} (hinv : s.Inv) (hturns : s.turns = [])
    (h : step s = .next t) : t.RunOver := by
  refine ⟨by rw [step_turns h, hturns, List.tail_nil], ?_⟩
  obtain ⟨-, hrest, rfl⟩ | ⟨-, -, -, ⟨i, -, hexec⟩ | ⟨c, -, rfl⟩⟩ | ⟨tr, hhead, -⟩ |
    ⟨level, hhead, -⟩ := step_cases h rfl
  · intro hbusy
    have hidle : s.eng = .idle := hinv.inReset (by simpa using fun hrst => hrest ⟨hrst, hbusy⟩)
    exact absurd (hbusy.symm.trans hidle) (by decide)
  · obtain hidle | ⟨hfaulted, -⟩ := exec_eng hexec
    · simp [hidle]
    · simp [hfaulted]
  · simp
  · simp [hturns] at hhead
  · simp [hturns] at hhead

/-- A run that answers a next state makes its first step, and then the others. -/
theorem run_succ_eq_next {M : Host.Core} {k : Nat} {s t : M.State} (h : M.run (k + 1) s = .next t) :
    ∃ u, M.step s = .next u ∧ M.run k u = .next t := by
  rw [Host.Core.run] at h
  split at h
  · rename_i u hstep
    exact ⟨u, hstep, h⟩
  · cases h
  · cases h

theorem run_runOver {s t : State} {n : Nat} (hinv : s.Inv) (hlen : s.turns.length = n)
    (h : (Host.Core.run Sys2Proof.core (n + 1) s : Answer) = .next t) : t.RunOver := by
  induction n generalizing s with
  | zero =>
    obtain ⟨u, hstep, hrun⟩ := run_succ_eq_next h
    cases hrun
    exact step_runOver_of_noTurn hinv (List.length_eq_zero_iff.1 hlen) hstep
  | succ n ih =>
    obtain ⟨u, hstep, hrun⟩ := run_succ_eq_next h
    have hrest : u.turns.length = n := by
      rw [step_turns hstep, List.length_tail, hlen, Nat.add_sub_cancel]
    exact ih (stepKeepsInvariant s u hinv hstep) hrest hrun

end Sys2Proof.Machine

open Sys2Proof Sys2Proof.Machine

/-- Settles O13: each step uses up one turn and keeps the invariant, and with no turn left a step ends
the run. -/
theorem everyRunEnds : Obligations.EveryRunEnds :=
  fun _ _ hinv h => run_runOver hinv rfl h

/-- Settles O21: both resets leave the same CWRAM, and a command's ranges name its destination. -/
theorem abandonedCells : Obligations.AbandonedCells := by
  refine ⟨fun s i hbusy hdecode a => ?_, fun s c hbusy hdecode => ?_,
    fun s => ⟨rfl, rfl, rfl, rfl, rfl, rfl, rfl, rfl⟩, fun s r hr => ?_, fun s ver ecl r hr => ?_,
    fun s ver ecl r hr => ?_, fun s ver ecl r hr => ?_, fun s i c hc => ?_,
    fun s i hdivide hrow => ?_⟩
  · have hread := read_abandonedCwram hbusy hdecode a
    exact ⟨hread, hread⟩
  · have hcwram := abandonedCwram_of_decode_error hbusy hdecode
    exact ⟨hcwram, hcwram⟩
  · rw [divideRanges_eq_ok hr]
    rfl
  · rw [rsencRanges_eq_ok hr]
    rfl
  · rw [structRanges_eq_ok hr]
    rfl
  · rw [getpolyRanges_eq_ok hr]
    rfl
  · rw [commandDest_of_error hc]
    rfl
  · rw [commandDest_eq_empty s (by simpa using hdivide) hrow]
    rfl

/-- Settles O19: the write rule of CTRL is then the soft reset. -/
theorem softResetEffect : Obligations.SoftResetEffect := by
  intro s w hrst hw
  refine ⟨s.abandonedCwram, ?_, abandonedCwram_of_not_busy⟩
  refine (hostMove_write_register hrst .ctrl w).trans ?_
  rw [writeRegister_ctrl_of_srst s hw]
  rfl

/-- Settles O20: the fall of `rst_n` resets the registers, and its rise changes nothing else. -/
theorem hardwareReset : Obligations.HardwareReset :=
  ⟨fun s => ⟨s.abandonedCwram, rfl, abandonedCwram_of_not_busy⟩, fun _ => ⟨rfl, rfl⟩,
    fun _ _ => step_of_engine_inReset, fun _ tr hrst => hostMove_inReset hrst tr⟩

end
